-- ==== Sys2Proof/Word.lean ====
section
/-! DEFINITION. The byte, the one unit of SMLFD's memory (R13: "Bytes are 8 bits"; R60). -/

namespace Sys2Proof

/-- One byte of the input buffer (R13). Bit 0 is the least significant bit. -/
abbrev Byte := BitVec 8

end Sys2Proof
end

