-- ==== Sys2Proof/Config.lean ====
section
/-! DEFINITION. What is fixed before a command starts (R10, R29), and the model's one free value. The default table of
`POLICY` and the reading of a policy stand in Machine/Policy.lean. -/

namespace Sys2Proof

/-- `START_MODE` (R10, R221, R222): how the start of a transmission is found. -/
inductive StartMode where
  /-- `pattern8`, the default: scan for the eight-byte start pattern (R221). -/
  | pattern8
  /-- `escape4_version4`: scan for the four-byte escape, check the version bytes afterwards (R222). -/
  | escape4Version4
  deriving DecidableEq, Repr

/-- The four checks that a message's abort-on-error byte governs (R280, R282). -/
inductive Check where
  | bodyListArity
  | eom
  | endEscape
  | endByte
  deriving DecidableEq, Repr

/-- What a governed check whose condition failed does (R282). -/
inductive Treatment where
  | warn
  | fatal
  deriving DecidableEq, Repr

/-- `POLICY` (R10, R282), "a function from (check, 8-bit value) to {warn, fatal}", as plain data: for each check one bit
for each value `a` of abort-on-error, bit `a` being 1 when the failed check is fatal. Every such function is a value of
this type. -/
structure Policy where
  bodyListArity : BitVec 256
  eom : BitVec 256
  endEscape : BitVec 256
  endByte : BitVec 256
  deriving DecidableEq, Repr

/-- The configuration (R29): "fixed before a command starts and are never changed by the block". `cw` is the width of the
Cursor and of every offset (R10, OPEN there): `none` is unbounded naturals. -/
structure Cfg where
  crcSwap : Bool
  startMode : StartMode
  policy : Policy
  cw : Option Nat
  deriving DecidableEq, Repr

/-- `TOLERANT` (R10, R11): the abort-on-error value that selects tolerant continuation. -/
def Config.tolerant : Byte := 0xFF

/-- `OSL_ERR` (R10, R124): the error code of `OSTR_LEN`. -/
def Config.oslErr : Int := -1

/-- `CAP_ENTRIES` (R10, R33): the most entries a list header can announce. -/
def Config.capEntries : Nat := 15

/-- FREE VALUE, DESIGN CHOICE, safe (assumption log entry 1): what `BUF[a]` reads as while the host has never written it (R40, R310; I14 of
93_implementation_defined.md: "any value"). It has no body, so no proof can learn it. -/
opaque Config.unwrittenByte : Nat → Byte

end Sys2Proof
end

