-- ==== Sys2Proof/Machine/Operands.lean ====
section
/-! DEFINITION. The operand forms: nibbles, byte order, the recognisers of one byte, and the readers of 40_primitive_lexer.md as
functions of the bytes from the cursor to the end of the buffer. A reader answers the value and the bytes after the
primitive, or why it failed; it never looks past the end of its list, which is `LEN` (R61, R120). -/

namespace Sys2Proof

/-- `hi(b) = b[7:4]`, the type nibble (R13, R80). -/
def hi (b : Byte) : BitVec 4 := b.extractLsb' 4 4

/-- `lo(b) = b[3:0]`, the length nibble (R13, R80). -/
def lo (b : Byte) : BitVec 4 := b.extractLsb' 0 4

/-- The byte with type nibble `h` and length nibble `l` (R80). -/
def tlByte (h l : BitVec 4) : Byte := h ++ l

/-- The number whose big-endian bytes are given, lowest offset first (R14 `MemRead`, R64). -/
def ofBigEndian (bs : List Byte) : Nat := bs.foldl (fun acc b => acc * 256 + b.toNat) 0

/-- The `w` big-endian bytes of `n`, most significant first (R64, R113). -/
def toBigEndian : (w : Nat) → (n : Nat) → List Byte
  | 0, _ => []
  | w + 1, n => BitVec.ofNat 8 (n / 256 ^ w) :: toBigEndian w n

/-- `IS_OSTR(b)` (R123). -/
def isOstr (b : Byte) : Bool := hi b == 0

/-- `OSTR_LEN(b)` (R124). -/
def ostrLen (b : Byte) : Int :=
  if hi b = 0 then (if b = 0 then 0 else Int.ofNat (lo b).toNat - 1) else Config.oslErr

/-- `LIST_LEN(b)` (R140). -/
def listLen (b : Byte) : BitVec 8 := if hi b = 7 then (lo b).zeroExtend 8 else 0xFF

/-- Why a reader fails (R15): its status other than `ok`. -/
inductive ReadFail where
  /-- the leading byte is not one the reader accepts: cause (a) of R120 -/
  | tagMismatch
  /-- the buffer ends before the primitive does: cause (b) of R120 -/
  | short
  /-- an extended length smaller than the number of its length bytes (R126) -/
  | badLength
  deriving DecidableEq, Repr

/-- What a reader answers: a value and the bytes behind the primitive, or a failure (R15, R120). -/
abbrev Read (α : Type) := Except ReadFail (α × List Byte)

/-- `Bytes(p, n)` with its bound check (R14, R61): the first `n` bytes, `short` if there are fewer. -/
def takeBytes (n : Nat) (bs : List Byte) : Read (List Byte) :=
  if bs.length < n then .error .short else .ok (bs.take n, bs.drop n)

/-- `RD_NUM(T, w)` (40_primitive_lexer.md section 3; R129 to R136), in R145's order of checks. -/
def rdNum (tag : Byte) (w : Nat) : List Byte → Read Nat
  | [] => .error .short
  | b :: rest =>
    if b = tag then
      if rest.length < w then .error .short else .ok (ofBigEndian (rest.take w), rest.drop w)
    else .error .tagMismatch

/-- `RD_U8` (R129). -/
def rdU8 (bs : List Byte) : Read Nat := rdNum 0x62 1 bs
/-- `RD_U16` (R130). -/
def rdU16 (bs : List Byte) : Read Nat := rdNum 0x63 2 bs
/-- `RD_U32` (R131). -/
def rdU32 (bs : List Byte) : Read Nat := rdNum 0x65 4 bs
/-- `RD_U64` (R132). -/
def rdU64 (bs : List Byte) : Read Nat := rdNum 0x69 8 bs
/-- `RD_I8` (R133). -/
def rdI8 (bs : List Byte) : Read Nat := rdNum 0x52 1 bs
/-- `RD_I16` (R134). -/
def rdI16 (bs : List Byte) : Read Nat := rdNum 0x53 2 bs
/-- `RD_I32` (R135). -/
def rdI32 (bs : List Byte) : Read Nat := rdNum 0x55 4 bs
/-- `RD_I64` (R136). -/
def rdI64 (bs : List Byte) : Read Nat := rdNum 0x59 8 bs

/-- How many payload bytes a short octet string with length nibble `l` has (R82; 0 for nibbles 0 and 1, R84, R83). -/
def ostrPayload (l : BitVec 4) : Nat := l.toNat - 1

/-- `RD_OSTR` (R125): the length nibble and the payload. -/
def rdOstr : List Byte → Read (BitVec 4 × List Byte)
  | [] => .error .short
  | b :: rest =>
    if hi b = 0 then
      if rest.length < ostrPayload (lo b) then .error .short
      else .ok ((lo b, rest.take (ostrPayload (lo b))), rest.drop (ostrPayload (lo b)))
    else .error .tagMismatch

/-- The chain of length bytes of R126: the low nibbles of the leading bytes with type nibble 8, the terminal byte, and the
bytes behind it; `none` when the buffer ends inside the chain. -/
def lengthChain : List Byte → Option (List (BitVec 4) × Byte × List Byte)
  | [] => none
  | b :: rest =>
    if hi b = 8 then (lengthChain rest).map fun (ns, t, r) => (lo b :: ns, t, r)
    else some ([], b, rest)

/-- `acc` of R126: the nibbles of the chain, most significant first, the terminal byte's last (R67). -/
def chainValue (ns : List (BitVec 4)) (t : Byte) : Nat :=
  (ns ++ [lo t]).foldl (fun acc n => acc * 16 + n.toNat) 0

/-- `k` of R126: how many length bytes the chain has. -/
def chainLength (ns : List (BitVec 4)) : Nat := ns.length + 1

/-- `RD_XOSTR` (R126): the chain, its terminal byte and the payload. -/
def rdXostr : List Byte → Read (List (BitVec 4) × Byte × List Byte)
  | [] => .error .short
  | b :: rest =>
    if hi b = 8 then
      match lengthChain (b :: rest) with
      | none => .error .short
      | some (ns, t, r) =>
        if chainValue ns t < chainLength ns then .error .badLength
        else
          match takeBytes (chainValue ns t - chainLength ns) r with
          | .error e => .error e
          | .ok (payload, r') => .ok ((ns, t, payload), r')
    else .error .tagMismatch

/-- `RD_LIST` (R141): the element count. -/
def rdList : List Byte → Read (BitVec 4)
  | [] => .error .short
  | b :: rest => if hi b = 7 then .ok (lo b, rest) else .error .tagMismatch

/-- An SmlTime (R89, R143; R36 without `absent`). -/
inductive SmlTime where
  | secIndex (v : BitVec 32)
  | timestamp (v : BitVec 32)
  | localTimestamp
  deriving DecidableEq, Repr

/-- `RD_TIME` (R142, R143), all or nothing. -/
def rdTime : List Byte → Read SmlTime
  | [] => .error .short
  | b :: rest =>
    if b = 0x72 then
      match rdU8 rest with
      | .error e => .error e
      | .ok (sub, rest2) =>
        if sub = 1 then
          match rdU32 rest2 with
          | .error e => .error e
          | .ok (v, r) => .ok (.secIndex (BitVec.ofNat 32 v), r)
        else if sub = 2 then
          match rdU32 rest2 with
          | .error e => .error e
          | .ok (v, r) => .ok (.timestamp (BitVec.ofNat 32 v), r)
        else if sub = 3 then .ok (.localTimestamp, rest2)
        else .error .tagMismatch
    else .error .tagMismatch

/-- The escape sequence (R90). -/
def escBytes : List Byte := [0x1b, 0x1b, 0x1b, 0x1b]

/-- The version bytes (R92). -/
def verBytes : List Byte := [0x01, 0x01, 0x01, 0x01]

/-- The start pattern (R92). -/
def startBytes : List Byte := escBytes ++ verBytes

/-- The end byte (R91). -/
def endMark : Byte := 0x1a

/-- The absent marker (R83). -/
def absentMark : Byte := 0x01

/-- The end-of-message byte (R84). -/
def eomMark : Byte := 0x00

/-- The header of a message, a list of six (R105, R224). -/
def messageMark : Byte := 0x76

/-- The expected message-body list header, a list of two (R105, R226). -/
def bodyListMark : Byte := 0x72

/-- The expected header of a list entry, a list of seven (R108, R200). -/
def entryMark : Byte := 0x77

/-- The message-type codes (R93). -/
def openResType : BitVec 16 := 0x0101
/-- GetList.Response (R93). -/
def getlistResType : BitVec 16 := 0x0701
/-- PublicClose.Response (R93). -/
def closeResType : BitVec 16 := 0x0201

end Sys2Proof
end

