-- ==== Sys2Proof/Syntax.lean ====
section
/-! DEFINITION. The instructions of SMLFD: one constructor per row of spec/opcode_table.json, with the operands its bytes
carry, and the contexts in which bytes are read (R3, R95). -/

namespace Sys2Proof

/-- The operations of the Primitive Lexer (40_primitive_lexer.md) that the sequencer can be about to run at a field. A
reader that the spec composes of smaller parts is run part by part: `RD_OSTR` as OSTR_LEN then OSTR (R125), `RD_LIST` as
LIST_LEN then LIST (R140, R141), the dispatching readers as the dispatcher and then the reader it selects (R127, R137 to
R139), `OPT` as OPT and then the reader (R146), the reference-time probe as PEEK then IS_OSTR then `RD_TIME` (R183). -/
inductive Op where
  | opt
  | ostrLen | ostr | xostr | ostrAny
  | u8 | u16 | u32 | u64
  | i8 | i16 | i32 | i64
  | unsigned | integer | status
  | listLen | list
  | time
  | value
  | peek | isOstr
  deriving DecidableEq, Repr

/-- The context in which bytes are decoded (R95: "The same byte value is read differently by position, never by mode"): the
place of the sequencer, or the `CMD` register (R22). -/
inductive Ctx where
  /-- a byte written to `CMD` (R112) -/
  | command
  /-- STATE = SeekStart (R221, R222) -/
  | seekStart
  /-- STATE = VerifyHeader: the four bytes after the escape (R223) -/
  | version
  /-- STATE = MessageLoop: the byte the loop guard tests (R224) -/
  | messageHeader
  /-- STATE = ReadEnvelope: the message-body list header (R226) -/
  | bodyList
  /-- STATE = DispatchBody: the message-type field just read (R232) -/
  | messageType
  /-- a list entry's header (R200) -/
  | entryHeader
  /-- the CRC field (R233) -/
  | crcField
  /-- the byte after the CRC field (R234) -/
  | eom
  /-- the closing escape (R235) -/
  | endEscape
  /-- the end byte (R235) -/
  | endByte
  /-- a lexer operation at a field -/
  | lex (op : Op)
  deriving DecidableEq, Repr

/-- The rows of spec/opcode_table.json. -/
inductive Instr where
  /-- `EOM`, byte `00` (R84, R234) -/
  | eom
  /-- `ABSENT`, byte `01` in an optional position (R83, R146) -/
  | absent
  /-- `OSTR`, a short octet string: the TL byte's low nibble and the payload (R82, R125). The nibbles 0 and 1 both have an
  empty payload (R84, R83). -/
  | ostr (lo : BitVec 4) (payload : List Byte)
  /-- `XOSTR`, an extended octet string: the nibbles of the leading `0x8n` length bytes, the terminal length byte, the
  payload (R85, R126) -/
  | xostr (chain : List (BitVec 4)) (terminal : Byte) (payload : List Byte)
  /-- `U8` (R86, R129) -/
  | u8 (v : BitVec 8)
  /-- `U16` (R86, R130) -/
  | u16 (v : BitVec 16)
  /-- `U32` (R86, R131) -/
  | u32 (v : BitVec 32)
  /-- `U64` (R86, R132) -/
  | u64 (v : BitVec 64)
  /-- `I8` (R87, R133) -/
  | i8 (v : BitVec 8)
  /-- `I16` (R87, R134) -/
  | i16 (v : BitVec 16)
  /-- `I32` (R87, R135) -/
  | i32 (v : BitVec 32)
  /-- `I64` (R87, R136) -/
  | i64 (v : BitVec 64)
  /-- `LIST`, a list header and its element count (R88, R141) -/
  | list (count : BitVec 4)
  /-- `TIME.SEC` (R89, R142) -/
  | timeSec (v : BitVec 32)
  /-- `TIME.TS` (R89, R142) -/
  | timeTs (v : BitVec 32)
  /-- `TIME.LOCAL` (R89, R142) -/
  | timeLocal
  /-- `ESC`, the closing escape (R90, R235) -/
  | esc
  /-- `END`, the end byte `1a` (R91, R235) -/
  | endByte
  /-- `START`, the start pattern (R92, R221, R222) -/
  | start
  /-- `VER`, the version bytes (R92, R223) -/
  | ver
  /-- `MSG`, the message header `76` (R105, R224, R225) -/
  | msg
  /-- `BODYLIST`, the message-body list header, `72` expected (R105, R226) -/
  | bodyList
  /-- `OPEN.RES`, message type 0x0101 (R93, R232, R183) -/
  | openRes
  /-- `CLOSE.RES`, message type 0x0201 (R93, R232, R184) -/
  | closeRes
  /-- `GETLIST.RES`, message type 0x0701 (R93, R232, R185) -/
  | getlistRes
  /-- `UNKNOWN.TYPE`, any other message type (R93, R232) -/
  | unknownType (t : BitVec 16)
  /-- `CRC`, the CRC field (R105, R233) -/
  | crc (c : BitVec 16)
  /-- `ENTRY`, a list entry's header, `77` expected (R108, R200) -/
  | entry
  /-- `VALUE`, the value probe and the byte it looks at (R201) -/
  | value (b : Byte)
  /-- `RD_OSTR_ANY` and the byte it looks at (R127) -/
  | rdOstrAny (b : Byte)
  /-- `RD_UNSIGNED` and the low nibble of the tag `0x6w` (R137) -/
  | rdUnsigned (w : BitVec 4)
  /-- `RD_INTEGER` and the low nibble of the tag `0x5w` (R138) -/
  | rdInteger (w : BitVec 4)
  /-- `RD_STATUS` and the low nibble of the tag `0x6w` (R139) -/
  | rdStatus (w : BitVec 4)
  /-- `IS_OSTR` of a byte (R123) -/
  | isOstr (b : Byte)
  /-- `OSTR_LEN` of a byte (R124) -/
  | ostrLen (b : Byte)
  /-- `LIST_LEN` of a byte (R140) -/
  | listLen (b : Byte)
  /-- `PEEK`, the byte at the cursor (R144) -/
  | peek (b : Byte)
  /-- `OPT` and the byte it peeks at (R146) -/
  | opt (b : Byte)
  /-- `DECODE`, host command 01 (R112, R220) -/
  | decode
  /-- `CRC16`, host command 02 (R112, R165) -/
  | crc16
  deriving DecidableEq, Repr

end Sys2Proof
end

