-- ==== Sys2Proof/WellFormed.lean ====
section
/-! DEFINITION. Which instructions some bytes encode: the relations between operands that the encodings of 30_encoding.md impose. -/

namespace Sys2Proof

/-- A well-formed instruction.
`OSTR`: the payload is as long as the nibble says (R82). `XOSTR`: at least one `0x8n` byte, a terminal byte of another type
nibble, a total length that covers the length bytes, and the payload the length leaves (R85, R126). `OPT` looks at a byte other
than the absent marker, which is ABSENT's (R146). `UNKNOWN.TYPE` carries none of the three known types (R93). -/
abbrev Instr.WellFormed : Instr → Prop
  | .eom => True
  | .absent => True
  | .ostr l payload => payload.length = ostrPayload l
  | .xostr ns t payload =>
    ns ≠ [] ∧ hi t ≠ 8 ∧ chainLength ns ≤ chainValue ns t ∧ payload.length = chainValue ns t - chainLength ns
  | .u8 _ => True
  | .u16 _ => True
  | .u32 _ => True
  | .u64 _ => True
  | .i8 _ => True
  | .i16 _ => True
  | .i32 _ => True
  | .i64 _ => True
  | .list _ => True
  | .timeSec _ => True
  | .timeTs _ => True
  | .timeLocal => True
  | .esc => True
  | .endByte => True
  | .start => True
  | .ver => True
  | .msg => True
  | .bodyList => True
  | .openRes => True
  | .closeRes => True
  | .getlistRes => True
  | .unknownType t => t ≠ openResType ∧ t ≠ closeResType ∧ t ≠ getlistResType
  | .crc _ => True
  | .entry => True
  | .value _ => True
  | .rdOstrAny _ => True
  | .rdUnsigned _ => True
  | .rdInteger _ => True
  | .rdStatus _ => True
  | .isOstr _ => True
  | .ostrLen _ => True
  | .listLen _ => True
  | .peek _ => True
  | .opt b => b ≠ absentMark
  | .decode => True
  | .crc16 => True

end Sys2Proof
end

