-- ==== Sys2Proof/Decode.lean ====
section
/-! DEFINITION. The decoder, the encoder, the extended-length encoder of R128, and the two readings of an opcode-table word.
Decoding takes a context (R95). What a context does not accept is rejected by name: `tagMismatch`, `short`, `badLength` (R15). -/

namespace Sys2Proof

/-- The instruction `i` when the bytes begin with its pattern `pat`; R145's order: enough bytes first. -/
def decodePattern (pat : List Byte) (i : Instr) (bs : List Byte) : Except ReadFail Instr :=
  if bs.length < pat.length then .error .short
  else if bs.take pat.length = pat then .ok i else .error .tagMismatch

/-- An instruction whose one operand is the byte looked at (R123, R124, R127, R140, R144, R201). -/
def decodeByte (mk : Byte → Instr) : List Byte → Except ReadFail Instr
  | [] => .error .short
  | b :: _ => .ok (mk b)

/-- A dispatcher whose tag has the type nibble `h` (R137 to R139): its operand is the length nibble. -/
def decodeNibble (h : BitVec 4) (mk : BitVec 4 → Instr) : List Byte → Except ReadFail Instr
  | [] => .error .short
  | b :: _ => if hi b = h then .ok (mk (lo b)) else .error .tagMismatch

/-- The optional-field convention's peek (R146): the absent marker is ABSENT, any other byte OPT. -/
def decodeOpt : List Byte → Except ReadFail Instr
  | [] => .error .short
  | b :: _ => .ok (if b = absentMark then .absent else .opt b)

/-- The message type's dispatch (R232), from the field's value. -/
def dispatchType (t : BitVec 16) : Instr :=
  if t = openResType then .openRes
  else if t = closeResType then .closeRes
  else if t = getlistResType then .getlistRes
  else .unknownType t

/-- A byte written to `CMD` (R22, R112). -/
def decodeCommand : List Byte → Except ReadFail Instr
  | [] => .error .short
  | b :: _ => if b = 0x01 then .ok .decode else if b = 0x02 then .ok .crc16 else .error .tagMismatch

/-- The value of a read, handed to a constructor. -/
def readInto {α : Type} (mk : α → Instr) (r : Read α) : Except ReadFail Instr :=
  match r with
  | .error e => .error e
  | .ok (v, _) => .ok (mk v)

/-- A SmlTime's row (R89, R143). -/
def timeInstr : SmlTime → Instr
  | .secIndex v => .timeSec v
  | .timestamp v => .timeTs v
  | .localTimestamp => .timeLocal

/-- What a lexer operation reads from the bytes at the cursor. -/
def decodeOp (op : Op) (bs : List Byte) : Except ReadFail Instr :=
  match op with
  | .opt => decodeOpt bs
  | .ostrLen => decodeByte .ostrLen bs
  | .ostr => readInto (fun (l, payload) => .ostr l payload) (rdOstr bs)
  | .xostr => readInto (fun (ns, t, payload) => .xostr ns t payload) (rdXostr bs)
  | .ostrAny => decodeByte .rdOstrAny bs
  | .u8 => readInto (fun v => .u8 (BitVec.ofNat 8 v)) (rdU8 bs)
  | .u16 => readInto (fun v => .u16 (BitVec.ofNat 16 v)) (rdU16 bs)
  | .u32 => readInto (fun v => .u32 (BitVec.ofNat 32 v)) (rdU32 bs)
  | .u64 => readInto (fun v => .u64 (BitVec.ofNat 64 v)) (rdU64 bs)
  | .i8 => readInto (fun v => .i8 (BitVec.ofNat 8 v)) (rdI8 bs)
  | .i16 => readInto (fun v => .i16 (BitVec.ofNat 16 v)) (rdI16 bs)
  | .i32 => readInto (fun v => .i32 (BitVec.ofNat 32 v)) (rdI32 bs)
  | .i64 => readInto (fun v => .i64 (BitVec.ofNat 64 v)) (rdI64 bs)
  | .unsigned => decodeNibble 6 .rdUnsigned bs
  | .integer => decodeNibble 5 .rdInteger bs
  | .status => decodeNibble 6 .rdStatus bs
  | .listLen => decodeByte .listLen bs
  | .list => readInto .list (rdList bs)
  | .time => readInto timeInstr (rdTime bs)
  | .value => decodeByte .value bs
  | .peek => decodeByte .peek bs
  | .isOstr => decodeByte .isOstr bs

/-- THE DECODER: total on any bytes, in every context. -/
def decode (c : Ctx) (bs : List Byte) : Except ReadFail Instr :=
  match c with
  | .command => decodeCommand bs
  | .seekStart => decodePattern startBytes .start bs
  | .version => decodePattern verBytes .ver bs
  | .messageHeader => decodePattern [messageMark] .msg bs
  | .bodyList => decodePattern [bodyListMark] .bodyList bs
  | .messageType => readInto (fun v => dispatchType (BitVec.ofNat 16 v)) (rdU16 bs)
  | .entryHeader => decodePattern [entryMark] .entry bs
  | .crcField => readInto (fun v => .crc (BitVec.ofNat 16 v)) (rdU16 bs)
  | .eom => decodePattern [eomMark] .eom bs
  | .endEscape => decodePattern escBytes .esc bs
  | .endByte => decodePattern [endMark] .endByte bs
  | .lex op => decodeOp op bs

/-- The context in which a row's bytes are read as that row. -/
def Instr.ctx : Instr → Ctx
  | .eom => .eom
  | .absent => .lex .opt
  | .ostr _ _ => .lex .ostr
  | .xostr _ _ _ => .lex .xostr
  | .u8 _ => .lex .u8
  | .u16 _ => .lex .u16
  | .u32 _ => .lex .u32
  | .u64 _ => .lex .u64
  | .i8 _ => .lex .i8
  | .i16 _ => .lex .i16
  | .i32 _ => .lex .i32
  | .i64 _ => .lex .i64
  | .list _ => .lex .list
  | .timeSec _ => .lex .time
  | .timeTs _ => .lex .time
  | .timeLocal => .lex .time
  | .esc => .endEscape
  | .endByte => .endByte
  | .start => .seekStart
  | .ver => .version
  | .msg => .messageHeader
  | .bodyList => .bodyList
  | .openRes => .messageType
  | .closeRes => .messageType
  | .getlistRes => .messageType
  | .unknownType _ => .messageType
  | .crc _ => .crcField
  | .entry => .entryHeader
  | .value _ => .lex .value
  | .rdOstrAny _ => .lex .ostrAny
  | .rdUnsigned _ => .lex .unsigned
  | .rdInteger _ => .lex .integer
  | .rdStatus _ => .lex .status
  | .isOstr _ => .lex .isOstr
  | .ostrLen _ => .lex .ostrLen
  | .listLen _ => .lex .listLen
  | .peek _ => .lex .peek
  | .opt _ => .lex .opt
  | .decode => .command
  | .crc16 => .command

/-- THE ENCODER: the bytes of an instruction, lowest offset first, from the tables of 30_encoding.md (R82 to R93, R105 to R109,
R112, R113). A dispatcher or recogniser is its one byte. -/
def encode : Instr → List Byte
  | .eom => [eomMark]
  | .absent => [absentMark]
  | .ostr l payload => tlByte 0 l :: payload
  | .xostr ns t payload => ns.map (tlByte 8) ++ t :: payload
  | .u8 v => 0x62 :: toBigEndian 1 v.toNat
  | .u16 v => 0x63 :: toBigEndian 2 v.toNat
  | .u32 v => 0x65 :: toBigEndian 4 v.toNat
  | .u64 v => 0x69 :: toBigEndian 8 v.toNat
  | .i8 v => 0x52 :: toBigEndian 1 v.toNat
  | .i16 v => 0x53 :: toBigEndian 2 v.toNat
  | .i32 v => 0x55 :: toBigEndian 4 v.toNat
  | .i64 v => 0x59 :: toBigEndian 8 v.toNat
  | .list n => [tlByte 7 n]
  | .timeSec v => 0x72 :: 0x62 :: 0x01 :: 0x65 :: toBigEndian 4 v.toNat
  | .timeTs v => 0x72 :: 0x62 :: 0x02 :: 0x65 :: toBigEndian 4 v.toNat
  | .timeLocal => [0x72, 0x62, 0x03]
  | .esc => escBytes
  | .endByte => [endMark]
  | .start => startBytes
  | .ver => verBytes
  | .msg => [messageMark]
  | .bodyList => [bodyListMark]
  | .openRes => [0x63, 0x01, 0x01]
  | .closeRes => [0x63, 0x02, 0x01]
  | .getlistRes => [0x63, 0x07, 0x01]
  | .unknownType t => 0x63 :: toBigEndian 2 t.toNat
  | .crc c => 0x63 :: toBigEndian 2 c.toNat
  | .entry => [entryMark]
  | .value b => [b]
  | .rdOstrAny b => [b]
  | .rdUnsigned w => [tlByte 6 w]
  | .rdInteger w => [tlByte 5 w]
  | .rdStatus w => [tlByte 6 w]
  | .isOstr b => [b]
  | .ostrLen b => [b]
  | .listLen b => [b]
  | .peek b => [b]
  | .opt b => [b]
  | .decode => [0x01]
  | .crc16 => [0x02]

/-- How many bytes a row takes (R111; R105 and R90 to R92 for the framing rows, R112 for the commands). The rows that look at one
byte without consuming it are that byte. -/
def Instr.size : Instr → Nat
  | .ostr l _ => max 1 l.toNat
  | .xostr ns t _ => chainValue ns t
  | .u8 _ | .i8 _ => 2
  | .u16 _ | .i16 _ | .unknownType _ | .crc _ => 3
  | .openRes | .closeRes | .getlistRes => 3
  | .u32 _ | .i32 _ => 5
  | .u64 _ | .i64 _ => 9
  | .timeSec _ | .timeTs _ => 8
  | .timeLocal => 3
  | .esc | .ver => 4
  | .start => 8
  | .eom | .absent | .list _ | .endByte | .msg | .bodyList | .entry | .value _ | .rdOstrAny _ | .rdUnsigned _ | .rdInteger _
  | .rdStatus _ | .isOstr _ | .ostrLen _ | .listLen _ | .peek _ | .opt _ | .decode | .crc16 => 1

/-- The `k` of R128: the least `k >= 2` with `n + k < 16^k`, searched upward from `k` with `fuel` tries. -/
def xlenCountFrom (n : Nat) : (fuel k : Nat) → Nat
  | 0, k => k
  | fuel + 1, k => if n + k < 16 ^ k then k else xlenCountFrom n fuel (k + 1)

/-- The number of length bytes of `XLEN(n)` (R128). `n + 2` tries always reach it. -/
def xlenCount (n : Nat) : Nat := xlenCountFrom n (n + 2) 2

/-- The `j` most significant of the nibbles of `T` that stand above its lowest one, as `0x8n` bytes (R128). -/
def xlenHead (total : Nat) : (j : Nat) → List Byte
  | 0 => []
  | j + 1 => tlByte 8 (BitVec.ofNat 4 (total / 16 ^ (j + 1))) :: xlenHead total j

/-- `XLEN(n)` (R128): the shortest length chain for a payload of `n` bytes. -/
def xlen (n : Nat) : List Byte :=
  let k := xlenCount n
  xlenHead (n + k) (k - 1) ++ [tlByte 0 (BitVec.ofNat 4 (n + k))]

/-! The opcode table's words. -/

/-- The low `n` bytes of `w`, most significant first, or least significant first. -/
def tableBytes (bigEndian : Bool) (n w : Nat) : List Byte :=
  if bigEndian then toBigEndian n w else (toBigEndian n w).reverse

/-- The context the opcode table means by a row, told from the row's first bytes and its length in bytes alone (DESIGN CHOICE, safe: entry 8). Where
two rows have the same bits (R95), an exact row wins over a masked one, and of two exact rows the earlier in the table. -/
def tableCtx (bigEndian : Bool) (n : Nat) (bs : List Byte) : Ctx :=
  match bs with
  | [] => .lex .peek
  | b :: _ =>
    if n = 8 ∧ b = 0x1b then .seekStart
    else if b = 0x1b then .endEscape
    else if n = 4 ∧ b = 0x01 then .version
    else if bigEndian = true ∧ n = 3 ∧ b = 0x63 then .messageType
    else if 1 < n ∧ b = 0x72 then .lex .time
    else if b = 0x00 then .eom
    else if b = 0x01 then .lex .opt
    else if n = 1 ∧ b = 0x02 then .command
    else if b = endMark then .endByte
    else if b = messageMark then .messageHeader
    else if b = bodyListMark then .bodyList
    else if b = entryMark then .entryHeader
    else if b = 0x62 then .lex .u8
    else if b = 0x63 then .lex .u16
    else if b = 0x65 then .lex .u32
    else if b = 0x69 then .lex .u64
    else if b = 0x52 then .lex .i8
    else if b = 0x53 then .lex .i16
    else if b = 0x55 then .lex .i32
    else if b = 0x59 then .lex .i64
    else if hi b = 0 then .lex .ostr
    else if hi b = 5 then .lex .integer
    else if hi b = 6 then .lex .unsigned
    else if hi b = 7 then .lex .list
    else if hi b = 8 then .lex .xostr
    else .lex .peek

/-- The bytes of zeros behind a table word: as many as the longest short primitive needs (R82, R111). -/
def tableZeros : List Byte := List.replicate 16 0

/-- The instruction and its bytes that the table word's `n` bytes, in one byte order, are; `none` unless the instruction covers
all `n` of them. A byte that no table row claims is no instruction. -/
def tableWordIn (bigEndian : Bool) (n w : Nat) : Option (Instr × List Byte) :=
  let bs := tableBytes bigEndian n w ++ tableZeros
  match tableCtx bigEndian n bs with
  | .lex .peek => none
  | c =>
    match decode c bs with
    | .error _ => none
    | .ok i => if n ≤ (encode i).length then some (i, bs) else none

/-- The instruction and the bytes of a table word. The rows given as a pattern of bits have their first byte most significant,
the rows given as match and mask have it least significant (the notes in spec/opcode_table.json): the first order that reads
as an instruction of at least `nbits` bits is taken (entry 8). -/
def tableWord (nbits w : Nat) : Option (Instr × List Byte) :=
  let n := (nbits + 7) / 8
  if n = 0 then none
  else
    match tableWordIn true n w with
    | some r => some r
    | none => tableWordIn false n w

/-- The instruction the decoder reads from a table word. -/
def decodeTableWord (nbits w : Nat) : Option Instr := (tableWord nbits w).map (·.1)

end Sys2Proof
end

