-- ==== Sys2Proof/Machine/Policy.lean ====
section
/-! DEFINITION. `POLICY` (R282, 60_exceptions.md): how a policy is read, its default table, and the two uniform
alternatives the spec names. -/

namespace Sys2Proof

/-- `POLICY(check, a)` (R282). -/
def Policy.treatment (p : Policy) (c : Check) (a : Byte) : Treatment :=
  let row := match c with
    | .bodyListArity => p.bodyListArity
    | .eom => p.eom
    | .endEscape => p.endEscape
    | .endByte => p.endByte
  if row.getLsbD a.toNat then .fatal else .warn

/-- The row "fatal exactly when `a` is TOLERANT" (R282, first row). -/
def Policy.fatalWhenTolerant : BitVec 256 := BitVec.twoPow 256 Config.tolerant.toNat

/-- The row "fatal exactly when `a` is not TOLERANT" (R282, rows two to four). -/
def Policy.fatalWhenStrict : BitVec 256 := ~~~Policy.fatalWhenTolerant

/-- The default table of R282: the first row runs against the other three (90_conflicts.md C1). -/
def Policy.default : Policy where
  bodyListArity := Policy.fatalWhenTolerant
  eom := Policy.fatalWhenStrict
  endEscape := Policy.fatalWhenStrict
  endByte := Policy.fatalWhenStrict

/-- R282's first uniform alternative: "all four rows as rows two to four". -/
def Policy.uniform : Policy where
  bodyListArity := Policy.fatalWhenStrict
  eom := Policy.fatalWhenStrict
  endEscape := Policy.fatalWhenStrict
  endByte := Policy.fatalWhenStrict

/-- R282's second uniform alternative: "always warn". -/
def Policy.alwaysWarn : Policy where
  bodyListArity := 0
  eom := 0
  endEscape := 0
  endByte := 0

/-- The default configuration of R10. DESIGN CHOICE (entry 4), unsafe: `CW` is OPEN there, and the default here is unbounded
naturals, as R10 says the model has them. -/
def Cfg.default : Cfg where
  crcSwap := false
  startMode := .pattern8
  policy := Policy.default
  cw := none

end Sys2Proof
end

