-- ==== Sys2Proof/Machine/State.lean ====
section
/-! DEFINITION. The state of SMLFD as plain data (10_state.md R20 to R41, 20_memory.md R60), the reasons a host action can be turned
away, and the state after reset (R40, R310). -/

namespace Sys2Proof.Machine

open Sys2Proof

/-- `BUF` (R60): the bytes the host has written, by offset, offsets strictly rising (`Memory.wf`). An offset that is not listed
holds no byte yet; it reads as the free value `Config.unwrittenByte` (DESIGN CHOICE, safe: entry 1). -/
abbrev Memory := List Host.Cell

/-- `STATE` as the host reads it (R25). -/
inductive StateReg where
  | idle | seekStart | verifyHeader | messageLoop | readEnvelope | dispatchBody | verifyCrcAndEom | seekEnd | done | error
  deriving DecidableEq, Repr

/-- `RESULT` (R26). `zeroLength` and `nullInput` are never written (R273). -/
inductive ResultCode where
  | ok | headerMismatch | syntaxError | zeroLength | nullInput | sizeError | unknownMessageType
  deriving DecidableEq, Repr

/-- The fields at which the sequencer runs a reader: one for each reader call of R225, R227, R183, R184, R185 and R200. The
three arity slots are the list headers at the top of the body decoders (R181). -/
inductive Slot where
  | transactionId | groupNo | abortOnError | msgType
  | openArity | openCodepage | openClientId | openReqField | openServerId | openRefTime | openVersion
  | closeArity | closeSignature
  | glArity | glClientId | glServerId | glListName | glSensorTime | glValList | glListSignature | glGatewayTime
  | leObjName | leStatus | leValTime | leUnit | leScaler | leValue | leValueSignature
  deriving DecidableEq, Repr

/-- Where the sequencer is: `STATE` with, for a running state, the place inside it (DESIGN CHOICE, safe: entry 5). `field f op` is the reader call at
the field `f`, whose next operation is `op`. -/
inductive Position where
  | idle
  | seekStart
  | verifyHeader
  | messageLoop
  /-- ReadEnvelope (R225, R227) or, inside a body decoder, DispatchBody (R183 to R185, R200) -/
  | field (f : Slot) (op : Op)
  /-- ReadEnvelope, at the message-body list header (R226) -/
  | bodyList
  /-- DispatchBody, choosing the body decoder (R232) -/
  | dispatch
  /-- DispatchBody, at a list entry's header (R200) -/
  | entryHeader
  /-- VerifyCrcAndEom, at the CRC field (R233) -/
  | crcField
  /-- VerifyCrcAndEom, at the end-of-message byte (R234) -/
  | eom
  /-- VerifyCrcAndEom, at the closing escape (R235) -/
  | endEscape
  /-- VerifyCrcAndEom, at the end byte (R235) -/
  | endByte
  | seekEnd
  | done
  | error
  deriving DecidableEq, Repr

/-- `FLAGS` (R27): three sticky one-bit flags, bits 0, 1 and 2. -/
structure FlagReg where
  crcErr : Bool
  warn : Bool
  finished : Bool
  deriving DecidableEq, Repr

/-- `CRCOP` (R28): the operands and the result of the `CRC16` command. -/
structure CrcOp where
  start : Nat
  len : Nat
  out : BitVec 16
  deriving DecidableEq, Repr

/-- `ENV` (R30): the envelope registers. -/
structure Env where
  msgStart : Nat
  transactionId : List Byte
  groupNo : BitVec 8
  abortOnError : BitVec 8
  msgType : BitVec 16
  crcFieldStart : Nat
  crcField : BitVec 16
  crcComputed : BitVec 16
  deriving DecidableEq, Repr

/-- The value of a list entry (R34, R204): at most one of a string and an integer. -/
inductive EntryValue where
  | unset
  | str (bs : List Byte)
  | int (v : BitVec 64)
  | uint (v : BitVec 64)
  deriving DecidableEq, Repr

/-- A ListEntry record (R34). `none` is R34's `absent`. -/
structure ListEntry where
  objName : List Byte
  status : Option (BitVec 64)
  valTime : Option SmlTime
  unit : Option (BitVec 8)
  scaler : BitVec 8
  value : EntryValue
  valueSignature : Option (List Byte)
  deriving DecidableEq, Repr

/-- A PublicOpenResponse record (R32). -/
structure OpenResponse where
  codepage : Option (List Byte)
  clientId : Option (List Byte)
  reqField : List Byte
  serverId : List Byte
  refTime : Option SmlTime
  smlVersion : BitVec 8
  deriving DecidableEq, Repr

/-- A GetListResponse record (R33). -/
structure ListResponse where
  clientId : Option (List Byte)
  serverId : List Byte
  listName : Option (List Byte)
  actSensorTime : Option SmlTime
  entries : List ListEntry
  listSignature : Option (List Byte)
  actGatewayTime : Option SmlTime
  deriving DecidableEq, Repr

/-- A PublicCloseResponse record (R35). -/
structure CloseResponse where
  globalSignature : Option (List Byte)
  deriving DecidableEq, Repr

/-- `DOC` (R31). -/
structure Document where
  opened : Option OpenResponse
  lists : List ListResponse
  closed : Option CloseResponse
  deriving DecidableEq, Repr

/-- The five severities of an event, coded 0 to 4 in this order (R284). -/
inductive EventSeverity where
  | verbose | debug | info | warning | error
  deriving DecidableEq, Repr

/-- The event codes (R285): `w…` are the `W_…` warnings, `eCrcMismatch` is `E_CRC_MISMATCH`, `f…` are the `F_…` fatal errors. -/
inductive EventCode where
  | wArityOpen | wArityClose | wArityGetlist | wArityEntry | wArityBody
  | wFieldTag | wReqfieldEmpty | wServeridEmpty | wReftimeProbe | wValueUnsupported
  | wEom | wEndEscape | wEndByte
  | eCrcMismatch
  | fHeaderMismatch | fSyntaxError | fSizeError | fUnknownType
  deriving DecidableEq, Repr

/-- The field identifiers (R287). -/
inductive FieldId where
  | transactionId | groupNo | abortOnError | msgType | crcField
  | openCodepage | openClientId | openReqField | openServerId | openRefTime | openVersion
  | closeSignature
  | glClientId | glServerId | glListName | glSensorTime | glValList | glListSignature | glGatewayTime
  | leObjName | leStatus | leValTime | leUnit | leScaler | leValue | leValueSignature
  deriving DecidableEq, Repr

/-- An event (R284): `at` is `loc` here. -/
structure Event where
  severity : EventSeverity
  code : EventCode
  field : Option FieldId
  loc : Nat
  deriving DecidableEq, Repr

/-- The status of a read (R15), with the fifth outcome `absent` of R146. -/
inductive Status where
  | ok | absent | tagMismatch | short | badLength
  deriving DecidableEq, Repr

/-- The value that a reader, recogniser or dispatcher returns. `select op` is a dispatcher's choice of the reader to call. -/
inductive Val where
  | nothing
  | octets (bs : List Byte)
  | w8 (v : BitVec 8)
  | w16 (v : BitVec 16)
  | w32 (v : BitVec 32)
  | w64 (v : BitVec 64)
  | time (t : SmlTime)
  | flag (b : Bool)
  | int (n : Int)
  | select (op : Op)
  deriving DecidableEq, Repr

/-- The pair "(status, value)" of R15. -/
structure Ret where
  status : Status
  val : Val
  deriving DecidableEq, Repr

/-- The state of SMLFD. `cfg` is the configuration, an argument of the step (R29, entry 2). `entriesLeft` is the loop counter of
R38 and `ret` the pair the last operation returned: the model's own (DESIGN CHOICE: entries 5 and 6). -/
structure State where
  /-- the configuration (R29) -/
  cfg : Cfg
  /-- `BUF` (R60) -/
  buf : Memory
  /-- `LEN` (R23) -/
  len : Nat
  /-- `pos`, the Cursor (R24) -/
  pos : Nat
  /-- `CMD` (R22): a byte written and not yet taken (DESIGN CHOICE: entry 3) -/
  cmd : Option Byte
  /-- `STATE` and the place inside it (R25) -/
  seq : Position
  /-- `RESULT` (R26) -/
  result : ResultCode
  /-- `FLAGS` (R27) -/
  flags : FlagReg
  /-- `CRCOP` (R28) -/
  crcop : CrcOp
  /-- `ENV` (R30) -/
  env : Env
  /-- `DOC` (R31) -/
  doc : Document
  /-- `EV` (R37) -/
  ev : List Event
  /-- the value-list loop's counter (R38): entries still to decode, the current one included -/
  entriesLeft : Nat
  /-- what the last lexer operation returned (R15) -/
  ret : Ret
  deriving DecidableEq, Repr

/-- Why the machine stops with a fault. No instruction and no step of SMLFD raises one: 93_implementation_defined.md says that no
behaviour of the block is stuck, and a fatal error (R290) is a next state. -/
inductive Fault where
  /-- Raised by `hostReadBuf` alone: the host read `BUF[a]` with `a >= LEN`, which R61 does not define. Safe (entry 10). -/
  | bufferBound (a : Nat)
  deriving DecidableEq, Repr

/-- Why an action is refused. -/
inductive Refusal where
  /-- An arm of `exec` whose instruction has no meaning yet. Raised by no arm. Safe. -/
  | notModelled (mnemonic : String)
  /-- Raised by the host-port writes: the host wrote `BUF`, `LEN` or `CRCOP`, or loaded a telegram, while STATE is running (R41, R315) or
  while a CMD write waits for its step (R72). Safe (entry 7). -/
  | hostWriteWhileRunning
  /-- Raised by the host-port writes: an offset or length not below 2^CW, where the configuration fixes CW (R10, R23). Safe (entry 4). -/
  | exceedsCursorWidth
  deriving DecidableEq, Repr

/-- The outcome of an instruction or a step. -/
abbrev Out := Host.Outcome State Fault Refusal

/-- `ENV` after reset and at the start of a DECODE (R40, R220). -/
def Env.reset : Env where
  msgStart := 0
  transactionId := []
  groupNo := 0
  abortOnError := 0
  msgType := 0
  crcFieldStart := 0
  crcField := 0
  crcComputed := 0

/-- `DOC = (none, [], none)` (R31, R40). -/
def Document.empty : Document where
  opened := none
  lists := []
  closed := none

/-- `FLAGS = 0` (R40). -/
def FlagReg.clear : FlagReg where
  crcErr := false
  warn := false
  finished := false

/-- The state right after reset (R40, R310). The values R40 does not list are the model's, DESIGN CHOICE and unsafe: no
command pending (entry 3), no entry left (entry 5), nothing returned (entry 6), the default configuration (entries 2 and 4);
`BUF` lists nothing (entry 1). -/
def State.reset : State where
  cfg := Cfg.default
  buf := []
  len := 0
  pos := 0
  cmd := none
  seq := .idle
  result := .ok
  flags := FlagReg.clear
  crcop := { start := 0, len := 0, out := 0 }
  env := Env.reset
  doc := Document.empty
  ev := []
  entriesLeft := 0
  ret := { status := .ok, val := .nothing }

end Sys2Proof.Machine
end

