-- ==== Sys2Proof/Machine/Ops.lean ====
section
/-! DEFINITION. The named operations over memory and registers: reading `BUF`, the cursor, the event log, warnings, TAKING A FATAL
ERROR (`raiseFatal`, R290, the block's trap entry), the register views the host reads. There is no return from a fatal error
but a new command or reset (R291). -/

namespace Sys2Proof.Machine

open Sys2Proof

/-! Memory (R60, R61). -/

/-- The byte listed at offset `a`, if the host has written one. -/
def Memory.get? : Memory → Nat → Option Byte
  | [], _ => none
  | (k, b) :: rest, a => if a = k then some b else if a < k then none else Memory.get? rest a

/-- The host's write of one byte, in canonical form. -/
def Memory.write : Memory → Nat → Byte → Memory
  | [], a, v => [(a, v)]
  | (k, b) :: rest, a, v =>
    if a < k then (a, v) :: (k, b) :: rest
    else if a = k then (a, v) :: rest
    else (k, b) :: Memory.write rest a v

/-- The canonical form: offsets strictly rising. An unlisted offset holds no value, so no entry can equal what one reads as. -/
abbrev Memory.wf (m : Memory) : Prop := m.Pairwise (fun x y => x.1 < y.1)

/-- Writing the bytes `bs` from offset `a` on. -/
def Memory.writeAll (m : Memory) (a : Nat) : List Byte → Memory
  | [] => m
  | b :: bs => Memory.writeAll (m.write a b) (a + 1) bs

/-- `BUF[a]` (R60): the byte the host wrote, or the free value (entry 1). -/
def Memory.byte (m : Memory) (a : Nat) : Byte := (m.get? a).getD (Config.unwrittenByte a)

/-- `Bytes(a, n)` (R14): the `n` bytes from offset `a`. -/
def Memory.bytes (m : Memory) (a : Nat) : (n : Nat) → List Byte
  | 0 => []
  | n + 1 => m.byte a :: Memory.bytes m (a + 1) n

/-- The bytes of the buffer from offset `a` to its end: nothing at or beyond `LEN` (R61). -/
def State.bytesFrom (s : State) (a : Nat) : List Byte := s.buf.bytes a (s.len - a)

/-- The bytes from the cursor to the end of the buffer: what a reader reads (R120). -/
def State.window (s : State) : List Byte := s.bytesFrom s.pos

/-! Positions and the registers the host reads. -/

/-- The STATE a field is read in: the envelope's fields in ReadEnvelope, the bodies' in DispatchBody (R225, R227, R232). -/
def Slot.stateReg : Slot → StateReg
  | .transactionId | .groupNo | .abortOnError | .msgType => .readEnvelope
  | .openArity | .openCodepage | .openClientId | .openReqField | .openServerId | .openRefTime | .openVersion
  | .closeArity | .closeSignature
  | .glArity | .glClientId | .glServerId | .glListName | .glSensorTime | .glValList | .glListSignature | .glGatewayTime
  | .leObjName | .leStatus | .leValTime | .leUnit | .leScaler | .leValue | .leValueSignature => .dispatchBody

/-- `STATE` (R25). -/
def Position.stateReg : Position → StateReg
  | .idle => .idle
  | .seekStart => .seekStart
  | .verifyHeader => .verifyHeader
  | .messageLoop => .messageLoop
  | .field f _ => f.stateReg
  | .bodyList => .readEnvelope
  | .dispatch => .dispatchBody
  | .entryHeader => .dispatchBody
  | .crcField => .verifyCrcAndEom
  | .eom => .verifyCrcAndEom
  | .endEscape => .verifyCrcAndEom
  | .endByte => .verifyCrcAndEom
  | .seekEnd => .seekEnd
  | .done => .done
  | .error => .error

/-- The code of a value of `STATE` (R25). -/
def StateReg.code : StateReg → Nat
  | .idle => 0
  | .seekStart => 1
  | .verifyHeader => 2
  | .messageLoop => 3
  | .readEnvelope => 4
  | .dispatchBody => 5
  | .verifyCrcAndEom => 6
  | .seekEnd => 7
  | .done => 8
  | .error => 9

/-- The code of a value of `RESULT` (R26). -/
def ResultCode.code : ResultCode → Nat
  | .ok => 0
  | .headerMismatch => 1
  | .syntaxError => 2
  | .zeroLength => 3
  | .nullInput => 4
  | .sizeError => 5
  | .unknownMessageType => 6

/-- The code of a severity (R284). -/
def EventSeverity.code : EventSeverity → Nat
  | .verbose => 0
  | .debug => 1
  | .info => 2
  | .warning => 3
  | .error => 4

/-- Whether a position is resting (R25: "resting", R41, R314). -/
def Position.resting : Position → Bool
  | .idle | .done | .error => true
  | .seekStart | .verifyHeader | .messageLoop | .field _ _ | .bodyList | .dispatch | .entryHeader
  | .crcField | .eom | .endEscape | .endByte | .seekEnd => false

/-- Whether the block is resting. -/
def State.resting (s : State) : Bool := s.seq.resting

/-! Register writes. -/

/-- The sequencer goes to `p`. -/
def State.goto (s : State) (p : Position) : State := { s with seq := p }

/-- The cursor advances by `n` bytes; the caller has checked that they are there (R24). -/
def State.advance (s : State) (n : Nat) : State := { s with pos := s.pos + n }

/-- An operation returns `(st, v)` (R15). -/
def State.return (s : State) (st : Status) (v : Val) : State := { s with ret := { status := st, val := v } }

/-- `FLAGS.WARN <- 1` (R27). -/
def State.setWarn (s : State) : State := { s with flags := { s.flags with warn := true } }

/-- `FLAGS.CRC_ERR <- 1` (R27). -/
def State.setCrcErr (s : State) : State := { s with flags := { s.flags with crcErr := true } }

/-- `FLAGS.FINISHED <- 1` (R27). -/
def State.setFinished (s : State) : State := { s with flags := { s.flags with finished := true } }

/-- A write of the envelope registers (R30). -/
def State.setEnv (s : State) (e : Env) : State := { s with env := e }

/-- A write of the Document store (R186: field by field). -/
def State.setDoc (s : State) (d : Document) : State := { s with doc := d }

/-- The value-list loop's counter (R38, R185). -/
def State.setEntriesLeft (s : State) (n : Nat) : State := { s with entriesLeft := n }

/-! Events, warnings and the fatal error. -/

/-- `emit(sev, code, field)` (R14, R284): one event, with the cursor as it is now; nothing else changes. -/
def State.emit (s : State) (sev : EventSeverity) (code : EventCode) (field : Option FieldId) : State :=
  { s with ev := s.ev ++ [{ severity := sev, code := code, field := field, loc := s.pos }] }

/-- `warn(code, field)` (R14, R292): a Warning event and `FLAGS.WARN <- 1`. -/
def State.warn (s : State) (code : EventCode) (field : Option FieldId) : State :=
  (s.emit .warning code field).setWarn

/-- The causes of `raise Fatal` (R270, R271). -/
inductive FatalCode where
  | headerMismatch | syntaxError | sizeError | unknownMessageType
  deriving DecidableEq, Repr

/-- The `RESULT` a fatal error writes (R26, R270). -/
def FatalCode.result : FatalCode → ResultCode
  | .headerMismatch => .headerMismatch
  | .syntaxError => .syntaxError
  | .sizeError => .sizeError
  | .unknownMessageType => .unknownMessageType

/-- The event a fatal error logs, `F_<code>` (R285, R290). -/
def FatalCode.event : FatalCode → EventCode
  | .headerMismatch => .fHeaderMismatch
  | .syntaxError => .fSyntaxError
  | .sizeError => .fSizeError
  | .unknownMessageType => .fUnknownType

/-- TAKING A FATAL ERROR, `raise Fatal(code)` (R290): RESULT, one Error event, STATE; pos, ENV, DOC and FLAGS stay. -/
def State.raiseFatal (s : State) (c : FatalCode) : State :=
  ({ s with result := c.result }.emit .error c.event none).goto .error

/-- A governed check that failed (R226, R234, R235, R282): by POLICY either the fatal error `c`, or the warning `w` and then
`next`. -/
def State.governed (s : State) (check : Check) (c : FatalCode) (w : EventCode) (next : State → State) : State :=
  match s.cfg.policy.treatment check s.env.abortOnError with
  | .fatal => s.raiseFatal c
  | .warn => next (s.warn w none)

/-! The lexer's shared part. -/

/-- The status of a failed read (R15). -/
def failStatus : ReadFail → Status
  | .tagMismatch => .tagMismatch
  | .short => .short
  | .badLength => .badLength

/-- A reader accepts a primitive of `n` bytes and returns `(ok, v)`, the cursor behind it (R120); where the buffer ends before
the primitive does it returns `(short, sentinel)` and the cursor stays (R122, R145). -/
def State.accept (s : State) (n : Nat) (v sentinel : Val) : State :=
  if s.pos + n ≤ s.len then (s.advance n).return .ok v else s.return .short sentinel

/-- The value a failed operation returns beside its status (R121): all ones at the reader's width, the empty sequence, or no
time. For the probes, which have no sentinel, nothing. -/
def sentinelOf : Op → Val
  | .ostrLen | .ostr | .xostr | .ostrAny => .octets []
  | .u8 | .i8 | .listLen | .list => .w8 0xFF
  | .u16 | .i16 => .w16 0xFFFF
  | .u32 | .i32 => .w32 0xFFFFFFFF
  | .u64 | .i64 | .unsigned | .integer | .status => .w64 0xFFFFFFFFFFFFFFFF
  | .time | .value | .peek | .isOstr | .opt => .nothing

end Sys2Proof.Machine
end

