-- ==== Sys2Proof/Machine/Slots.lean ====
section
/-! DEFINITION. The fields' tables: which reader each field is read with, which are optional, under which identifier its warnings
stand (R105 to R109, R183 to R185, R200, R225, R227, R287), and the writes into the Document store (R31, R186). -/

namespace Sys2Proof.Machine

open Sys2Proof

/-- The reader of a field; for an optional field the operand of `OPT` (R146, R182). `RD_OSTR` starts with OSTR_LEN, `RD_LIST`
with LIST_LEN, the reference-time probe with PEEK, the value probe with VALUE. -/
def Slot.reader : Slot → Op
  | .transactionId => .ostrLen
  | .groupNo => .u8
  | .abortOnError => .u8
  | .msgType => .u16
  | .openArity => .listLen
  | .openCodepage => .ostrLen
  | .openClientId => .ostrLen
  | .openReqField => .ostrLen
  | .openServerId => .ostrLen
  | .openRefTime => .peek
  | .openVersion => .u8
  | .closeArity => .listLen
  | .closeSignature => .ostrAny
  | .glArity => .listLen
  | .glClientId => .ostrLen
  | .glServerId => .ostrLen
  | .glListName => .ostrLen
  | .glSensorTime => .time
  | .glValList => .listLen
  | .glListSignature => .ostrAny
  | .glGatewayTime => .time
  | .leObjName => .ostrLen
  | .leStatus => .status
  | .leValTime => .time
  | .leUnit => .u8
  | .leScaler => .i8
  | .leValue => .value
  | .leValueSignature => .ostrAny

/-- Whether a field is read with the optional-field convention (R106 to R109: "opt"). -/
def Slot.optional : Slot → Bool
  | .openCodepage | .openClientId | .openVersion | .closeSignature
  | .glClientId | .glListName | .glSensorTime | .glListSignature | .glGatewayTime
  | .leStatus | .leValTime | .leUnit | .leScaler | .leValueSignature => true
  | .transactionId | .groupNo | .abortOnError | .msgType
  | .openArity | .openReqField | .openServerId | .openRefTime
  | .closeArity | .glArity | .glServerId | .glValList | .leObjName | .leValue => false

/-- The first operation at a field. -/
def Slot.start (f : Slot) : Op := if f.optional then .opt else f.reader

/-- The expected element count and the warning code of an arity slot (R181, R183 to R185); `none` for the other fields. -/
def Slot.arity : Slot → Option (BitVec 8 × EventCode)
  | .openArity => some (6, .wArityOpen)
  | .closeArity => some (1, .wArityClose)
  | .glArity => some (7, .wArityGetlist)
  | .transactionId | .groupNo | .abortOnError | .msgType
  | .openCodepage | .openClientId | .openReqField | .openServerId | .openRefTime | .openVersion
  | .closeSignature
  | .glClientId | .glServerId | .glListName | .glSensorTime | .glValList | .glListSignature | .glGatewayTime
  | .leObjName | .leStatus | .leValTime | .leUnit | .leScaler | .leValue | .leValueSignature => none

/-- The field's identifier (R287). The arity checks name no field (R181: `warn(code, none)`). -/
def Slot.fieldId : Slot → Option FieldId
  | .transactionId => some .transactionId
  | .groupNo => some .groupNo
  | .abortOnError => some .abortOnError
  | .msgType => some .msgType
  | .openArity => none
  | .openCodepage => some .openCodepage
  | .openClientId => some .openClientId
  | .openReqField => some .openReqField
  | .openServerId => some .openServerId
  | .openRefTime => some .openRefTime
  | .openVersion => some .openVersion
  | .closeArity => none
  | .closeSignature => some .closeSignature
  | .glArity => none
  | .glClientId => some .glClientId
  | .glServerId => some .glServerId
  | .glListName => some .glListName
  | .glSensorTime => some .glSensorTime
  | .glValList => some .glValList
  | .glListSignature => some .glListSignature
  | .glGatewayTime => some .glGatewayTime
  | .leObjName => some .leObjName
  | .leStatus => some .leStatus
  | .leValTime => some .leValTime
  | .leUnit => some .leUnit
  | .leScaler => some .leScaler
  | .leValue => some .leValue
  | .leValueSignature => some .leValueSignature

/-- The reader of the field the sequencer is at: the operand of `OPT(reader)` (R146). -/
def Position.reader : Position → Option Op
  | .field f _ => some f.reader
  | .idle | .seekStart | .verifyHeader | .messageLoop | .bodyList | .dispatch | .entryHeader
  | .crcField | .eom | .endEscape | .endByte | .seekEnd | .done | .error => none

/-- The sequencer goes to the field `f`, before its first operation. -/
def State.enter (s : State) (f : Slot) : State := s.goto (.field f f.start)

/-! Records as they are created (R32 to R35). -/

/-- A new PublicOpenResponse (R32). -/
def OpenResponse.fresh : OpenResponse where
  codepage := none
  clientId := none
  reqField := []
  serverId := []
  refTime := none
  smlVersion := 1

/-- A new GetListResponse (R33). -/
def ListResponse.fresh : ListResponse where
  clientId := none
  serverId := []
  listName := none
  actSensorTime := none
  entries := []
  listSignature := none
  actGatewayTime := none

/-- A new ListEntry (R34). -/
def ListEntry.fresh : ListEntry where
  objName := []
  status := none
  valTime := none
  unit := none
  scaler := 0
  value := .unset
  valueSignature := none

/-- A new PublicCloseResponse (R35). -/
def CloseResponse.fresh : CloseResponse where
  globalSignature := none

/-! Writes into the Document: the record being filled is the opened one, the last list, the last entry of the last list, the
closed one (R183 to R186, R200). Where there is no such record, which no run meets, nothing is written (DESIGN CHOICE, safe: entry 9). -/

/-- `f` on the last element. -/
def mapLast {α : Type} (f : α → α) : List α → List α
  | [] => []
  | [x] => [f x]
  | x :: y :: rest => x :: mapLast f (y :: rest)

/-- A write to the PublicOpenResponse record being filled (R183). -/
def State.updateOpen (s : State) (f : OpenResponse → OpenResponse) : State :=
  s.setDoc { s.doc with opened := s.doc.opened.map f }

/-- A write to the GetListResponse record being filled, the last one appended (R185). -/
def State.updateList (s : State) (f : ListResponse → ListResponse) : State :=
  s.setDoc { s.doc with lists := mapLast f s.doc.lists }

/-- A write to the ListEntry record being filled, the last one appended (R200). -/
def State.updateEntry (s : State) (f : ListEntry → ListEntry) : State :=
  s.updateList fun r => { r with entries := mapLast f r.entries }

/-- A write to the PublicCloseResponse record (R184). -/
def State.updateClose (s : State) (f : CloseResponse → CloseResponse) : State :=
  s.setDoc { s.doc with closed := s.doc.closed.map f }

/-- `r.reqField` of the PublicOpenResponse being filled. -/
def State.currentReqField (s : State) : List Byte :=
  match s.doc.opened with
  | some r => r.reqField
  | none => []

/-- `r.serverId` of the PublicOpenResponse being filled. -/
def State.currentOpenServerId (s : State) : List Byte :=
  match s.doc.opened with
  | some r => r.serverId
  | none => []

/-- `r.serverId` of the GetListResponse being filled. -/
def State.currentListServerId (s : State) : List Byte :=
  match s.doc.lists.getLast? with
  | some r => r.serverId
  | none => []

end Sys2Proof.Machine
end

