-- ==== Sys2Proof/Machine/Bodies.lean ====
section
/-! DEFINITION. The rows that enter a body decoder or a list entry: OPEN.RES, CLOSE.RES, GETLIST.RES (R232, R183 to R185), ENTRY (R200), and the
value probe VALUE (R201). The fields behind them are read one by one, Machine/Sequencer.lean. -/

namespace Sys2Proof.Machine

open Sys2Proof

/-- OPEN.RES (R232, R183): a new PublicOpenResponse replaces an earlier one; its list header is next. -/
def execOpenRes (s : State) : Out :=
  .next ((s.setDoc { s.doc with opened := some OpenResponse.fresh }).enter .openArity)

/-- CLOSE.RES (R232, R184): FINISHED, then a new PublicCloseResponse; its list header is next. -/
def execCloseRes (s : State) : Out :=
  .next ((s.setFinished.setDoc { s.doc with closed := some CloseResponse.fresh }).enter .closeArity)

/-- GETLIST.RES (R232, R185): a new GetListResponse is appended; its list header is next. -/
def execGetlistRes (s : State) : Out :=
  .next ((s.setDoc { s.doc with lists := s.doc.lists ++ [ListResponse.fresh] }).enter .glArity)

/-- ENTRY (R200, first two lines): a new ListEntry is appended to the list being filled, then ARITY(7, W_ARITY_ENTRY) (R181). -/
def execEntry (s : State) : Out :=
  let s := s.updateList fun r => { r with entries := r.entries ++ [ListEntry.fresh] }
  .next
    (match rdList s.window with
    | .error .short => s.raiseFatal .sizeError
    | .error .tagMismatch => (s.warn .wArityEntry none).enter .leObjName
    | .error .badLength => (s.warn .wArityEntry none).enter .leObjName
    | .ok (n, _) =>
      if n = 7 then (s.advance 1).enter .leObjName
      else ((s.advance 1).warn .wArityEntry none).enter .leObjName)

/-- VALUE (R201): by the type nibble the reader of the value, or, unsupported, a warning and nothing consumed. -/
def execValue (b : Byte) (s : State) : Out :=
  .next
    (if hi b = 0 then s.return .ok (.select .ostrLen)
    else if hi b = 5 then s.return .ok (.select .integer)
    else if hi b = 6 then s.return .ok (.select .unsigned)
    else (s.warn .wValueUnsupported (some .leValue)).return .ok .nothing)

end Sys2Proof.Machine
end

