-- ==== Sys2Proof/Machine/Crc.lean ====
section
/-! DEFINITION. The CRC-16 Checksum Engine (41_crc16_engine.md): the bit-serial form of R161, and the byte-wise form of R162. -/

namespace Sys2Proof

/-- The initial value of the accumulator (R160, R161). -/
def crcInit : BitVec 16 := 0xFFFF

/-- The reversed polynomial (R160, R161). -/
def crcPoly : BitVec 16 := 0x8408

/-- One shift of R161: the bit shifted out selects the exclusive-or with the polynomial. -/
def crcShift (c : BitVec 16) : BitVec 16 :=
  if c.getLsbD 0 then (c >>> 1) ^^^ crcPoly else c >>> 1

/-- `n` shifts. -/
def crcShifts : (n : Nat) → BitVec 16 → BitVec 16
  | 0, c => c
  | n + 1, c => crcShifts n (crcShift c)

/-- One byte of R161: the byte enters at the low end, then eight shifts. -/
def crcByte (c : BitVec 16) (b : Byte) : BitVec 16 := crcShifts 8 (c ^^^ b.zeroExtend 16)

/-- The accumulator after the bytes, before the final complement (R161). -/
def crcRun (c : BitVec 16) (bs : List Byte) : BitVec 16 := bs.foldl crcByte c

/-- `CRC16` of a byte sequence (R160, R161). -/
def crc16 (bs : List Byte) : BitVec 16 := crcRun crcInit bs ^^^ 0xFFFF

/-- `TAB[j]` (R162). -/
def crcTab (j : Byte) : BitVec 16 := crcShifts 8 (j.zeroExtend 16)

/-- The loop body of R162. -/
def crcByteTab (c : BitVec 16) (b : Byte) : BitVec 16 :=
  (c >>> 8) ^^^ crcTab ((c ^^^ b.zeroExtend 16).extractLsb' 0 8)

/-- `CRC16` in the byte-wise form of R162. -/
def crc16Tab (bs : List Byte) : BitVec 16 := bs.foldl crcByteTab crcInit ^^^ 0xFFFF

end Sys2Proof
end

