-- ==== Sys2Proof/Machine/Flags.lean ====
section
/-! DEFINITION. The FLAGS register as the host reads it, and the one flag that is computed: CRC_ERR from the comparison of R164. WARN is
set by `State.warn`, FINISHED by the dispatch of R232; all three are cleared by DECODE (R27, R220). -/

namespace Sys2Proof.Machine

open Sys2Proof

/-- `FLAGS` as a word (R27): CRC_ERR bit 0, WARN bit 1, FINISHED bit 2. -/
def FlagReg.word (f : FlagReg) : BitVec 3 :=
  BitVec.ofBool f.finished ++ BitVec.ofBool f.warn ++ BitVec.ofBool f.crcErr

/-- A 16-bit value with its two bytes exchanged (R164: `c[7:0] ++ c[15:8]`). -/
def swapBytes (c : BitVec 16) : BitVec 16 := c.extractLsb' 0 8 ++ c.extractLsb' 8 8

/-- `expected` of R164. -/
def expectedCrc (swap : Bool) (computed : BitVec 16) : BitVec 16 :=
  if swap then swapBytes computed else computed

/-- `CRC16(start, len)` over `BUF` (R160). -/
def State.crc16Of (s : State) (start len : Nat) : BitVec 16 := Sys2Proof.crc16 (s.buf.bytes start len)

/-- The comparison of R164: `readOk` says whether the CRC field was read; on a mismatch CRC_ERR is set and E_CRC_MISMATCH
logged, and nothing else happens (R293). -/
def State.compareCrc (s : State) (readOk : Bool) : State :=
  if readOk && s.env.crcField == expectedCrc s.cfg.crcSwap s.env.crcComputed then s
  else s.setCrcErr.emit .error .eCrcMismatch (some .crcField)

end Sys2Proof.Machine
end

