-- ==== Sys2Proof/Machine/Commands.lean ====
section
/-! DEFINITION. The host commands DECODE (R220) and CRC16 (R165), accepted while STATE is resting (R22, R314). A refused command changes nothing. -/

namespace Sys2Proof.Machine

open Sys2Proof

/-- What a DECODE clears (R220), and the model's own fields with it (entries 5 and 6). -/
def State.beginDecode (s : State) : State :=
  { s with
    doc := Document.empty
    ev := []
    flags := FlagReg.clear
    env := Env.reset
    result := .ok
    pos := 0
    entriesLeft := 0
    ret := { status := .ok, val := .nothing }
    seq := .seekStart }

/-- DECODE (R220). -/
def execDecode (s : State) : Out := .next (if s.resting then s.beginDecode else s)

/-- CRC16 (R165): the checksum of the range when it lies inside the buffer, else refused. -/
def execCrc16 (s : State) : Out :=
  .next
    (if s.resting ∧ s.crcop.start + s.crcop.len ≤ s.len then
      { s with crcop := { s.crcop with out := s.crc16Of s.crcop.start s.crcop.len } }
    else s)

end Sys2Proof.Machine
end

