-- ==== Sys2Proof/Machine/Frame.lean ====
section
/-! DEFINITION. The Frame Decoder's rows (44_frame_decoder.md): START, VER, MSG, BODYLIST, UNKNOWN.TYPE, CRC, EOM, ESC, END. Each is the whole
rule: what it does when its bytes stand at the cursor and what it does when they do not. -/

namespace Sys2Proof.Machine

open Sys2Proof

/-- The least `k` at which the bytes begin with `pat` (R221, R222). -/
def findPattern (pat : List Byte) : List Byte → Option Nat
  | [] => if pat.isEmpty then some 0 else none
  | b :: bs => if (b :: bs).take pat.length = pat then some 0 else (findPattern pat bs).map (· + 1)

/-- The pattern SeekStart searches, by START_MODE (R221, R222). -/
def seekPattern : StartMode → List Byte
  | .pattern8 => startBytes
  | .escape4Version4 => escBytes

/-- START, SeekStart (R221, R222): the first place of the pattern, from offset 0 upward; where there is none the cursor goes to
LEN and the error is SizeError. -/
def execStart (s : State) : Out :=
  .next
    (match findPattern (seekPattern s.cfg.startMode) (s.bytesFrom 0) with
    | none => { s with pos := s.len }.raiseFatal .sizeError
    | some k => { s with pos := k }.goto .verifyHeader)

/-- VER, VerifyHeader (R223). -/
def execVer (s : State) : Out :=
  .next
    (if s.len < s.pos + 8 then s.raiseFatal .sizeError
    else if s.buf.bytes s.pos 4 = escBytes ∧ s.buf.bytes (s.pos + 4) 4 = verBytes then (s.advance 8).goto .messageLoop
    else s.raiseFatal .headerMismatch)

/-- The message header consumed (R225, first two lines): the transaction ID is next. -/
def State.beginMessage (s : State) : State :=
  ((s.setEnv { s.env with msgStart := s.pos }).advance 1).enter .transactionId

/-- MSG, the loop guard (R224) and the header of R225. -/
def execMsg (s : State) : Out :=
  .next
    (if s.flags.finished then s.goto .seekEnd
    else if s.pos < s.len ∧ s.buf.byte s.pos = messageMark then s.beginMessage
    else s.goto .seekEnd)

/-- BODYLIST (R226): `RD_LIST`, and the governed check that the count is 2. -/
def execBodyList (s : State) : Out :=
  .next
    (match rdList s.window with
    | .error .short => s.raiseFatal .sizeError
    | .error .tagMismatch => s.governed .bodyListArity .syntaxError .wArityBody (·.enter .msgType)
    | .error .badLength => s.governed .bodyListArity .syntaxError .wArityBody (·.enter .msgType)
    | .ok (n, _) =>
      if n = 2 then (s.advance 1).enter .msgType
      else (s.advance 1).governed .bodyListArity .syntaxError .wArityBody (·.enter .msgType))

/-- UNKNOWN.TYPE (R232): always fatal, whatever abort-on-error is. -/
def execUnknownType (_t : BitVec 16) (s : State) : Out := .next (s.raiseFatal .unknownMessageType)

/-- VerifyCrcAndEom's first part (R233) once `RD_U16` has answered: the field's start, the field, the checksum over
[msgStart, crcFieldStart) (R163), the comparison (R164). `value` is `none` on a wrong tag, which is not consumed. -/
def State.verifyCrc (s : State) (value : Option (BitVec 16)) : State :=
  let q := s.pos
  let sum := s.crc16Of s.env.msgStart (q - s.env.msgStart)
  match value with
  | some c =>
    (((s.setEnv { s.env with crcFieldStart := q, crcField := c, crcComputed := sum }).advance 3).compareCrc true).goto .eom
  | none =>
    ((s.setEnv { s.env with crcFieldStart := q, crcField := 0xFFFF, crcComputed := sum }).compareCrc false).goto .eom

/-- R233 when the buffer ends before the CRC field does: the field's start is written, then SizeError. -/
def State.crcCut (s : State) : State :=
  (s.setEnv { s.env with crcFieldStart := s.pos }).raiseFatal .sizeError

/-- R233 when the CRC field could not be read. -/
def State.crcUnread (s : State) (e : ReadFail) : State :=
  match e with
  | .short => s.crcCut
  | .tagMismatch => s.verifyCrc none
  | .badLength => s.verifyCrc none

/-- CRC (R233): the CRC field `63 c`. -/
def execCrc (c : BitVec 16) (s : State) : Out :=
  .next (if s.pos + 3 ≤ s.len then s.verifyCrc (some c) else s.crcCut)

/-- After the end-of-message byte (R234, last two lines). -/
def State.afterEom (s : State) : State := if s.flags.finished then s.goto .endEscape else s.goto .messageLoop

/-- EOM (R234). -/
def execEom (s : State) : Out :=
  .next
    (if s.len ≤ s.pos then s.raiseFatal .sizeError
    else if s.buf.byte s.pos = eomMark then (s.advance 1).afterEom
    else s.governed .eom .syntaxError .wEom State.afterEom)

/-- ESC, the closing escape (R235, first half). -/
def execEsc (s : State) : Out :=
  .next
    (if s.len < s.pos + 4 then s.raiseFatal .sizeError
    else if s.buf.bytes s.pos 4 = escBytes then (s.advance 4).goto .endByte
    else s.governed .endEscape .headerMismatch .wEndEscape (·.goto .endByte))

/-- END, the end byte (R235, second half). -/
def execEndByte (s : State) : Out :=
  .next
    (if s.len ≤ s.pos then s.raiseFatal .sizeError
    else if s.buf.byte s.pos = endMark then (s.advance 1).goto .messageLoop
    else s.governed .endByte .headerMismatch .wEndByte (·.goto .messageLoop))

end Sys2Proof.Machine
end

