-- ==== Sys2Proof/Machine/Lists.lean ====
section
/-! DEFINITION. The rows LIST, LIST_LEN (R140, R141) and TIME.SEC, TIME.TS, TIME.LOCAL (R142, R143). -/

namespace Sys2Proof.Machine

open Sys2Proof

/-- LIST (R141): the element count; the header byte is passed. -/
def execList (count : BitVec 4) (s : State) : Out := .next (s.accept 1 (.w8 (count.zeroExtend 8)) (sentinelOf .list))

/-- LIST_LEN (R140). -/
def execListLen (b : Byte) (s : State) : Out := .next (s.return .ok (.w8 (listLen b)))

/-- TIME.SEC (R142, R143): `SecIndex(v)`, eight bytes passed. -/
def execTimeSec (v : BitVec 32) (s : State) : Out := .next (s.accept 8 (.time (.secIndex v)) (sentinelOf .time))

/-- TIME.TS (R142, R143): `Timestamp(v)`, eight bytes passed. -/
def execTimeTs (v : BitVec 32) (s : State) : Out := .next (s.accept 8 (.time (.timestamp v)) (sentinelOf .time))

/-- TIME.LOCAL (R142, R143): `LocalTimestamp`, three bytes passed and nothing after the sub-type. -/
def execTimeLocal (s : State) : Out := .next (s.accept 3 (.time .localTimestamp) (sentinelOf .time))

end Sys2Proof.Machine
end

