-- ==== Sys2Proof/Machine/Numerics.lean ====
section
/-! DEFINITION. The numeric rows (40_primitive_lexer.md sections 3 and 4): U8 to U64, I8 to I64 and the dispatchers RD_UNSIGNED,
RD_INTEGER, RD_STATUS. A fixed-width row is `RD_NUM` met by its own tag: its value, the tag and the value passed. -/

namespace Sys2Proof.Machine

open Sys2Proof

/-- U8 (R129). -/
def execU8 (v : BitVec 8) (s : State) : Out := .next (s.accept 2 (.w8 v) (sentinelOf .u8))

/-- U16 (R130). -/
def execU16 (v : BitVec 16) (s : State) : Out := .next (s.accept 3 (.w16 v) (sentinelOf .u16))

/-- U32 (R131). -/
def execU32 (v : BitVec 32) (s : State) : Out := .next (s.accept 5 (.w32 v) (sentinelOf .u32))

/-- U64 (R132). -/
def execU64 (v : BitVec 64) (s : State) : Out := .next (s.accept 9 (.w64 v) (sentinelOf .u64))

/-- I8 (R133). -/
def execI8 (v : BitVec 8) (s : State) : Out := .next (s.accept 2 (.w8 v) (sentinelOf .i8))

/-- I16 (R134). -/
def execI16 (v : BitVec 16) (s : State) : Out := .next (s.accept 3 (.w16 v) (sentinelOf .i16))

/-- I32 (R135). -/
def execI32 (v : BitVec 32) (s : State) : Out := .next (s.accept 5 (.w32 v) (sentinelOf .i32))

/-- I64 (R136). -/
def execI64 (v : BitVec 64) (s : State) : Out := .next (s.accept 9 (.w64 v) (sentinelOf .i64))

/-- The reader RD_UNSIGNED selects for the tag `0x6w` (R137). -/
def unsignedReader (w : BitVec 4) : Option Op :=
  if w = 2 then some .u8 else if w = 3 then some .u16 else if w = 5 then some .u32 else if w = 9 then some .u64 else none

/-- The reader RD_INTEGER selects for the tag `0x5w` (R138). -/
def integerReader (w : BitVec 4) : Option Op :=
  if w = 2 then some .i8 else if w = 3 then some .i16 else if w = 5 then some .i32 else if w = 9 then some .i64 else none

/-- A dispatcher's answer: the reader it selects, or `tag_mismatch` with `ones(64)` (R121, R137, R138). -/
def State.selectReader (s : State) (r : Option Op) : State :=
  match r with
  | some op => s.return .ok (.select op)
  | none => s.return .tagMismatch (sentinelOf .unsigned)

/-- RD_UNSIGNED (R137). -/
def execRdUnsigned (w : BitVec 4) (s : State) : Out := .next (s.selectReader (unsignedReader w))

/-- RD_INTEGER (R138). -/
def execRdInteger (w : BitVec 4) (s : State) : Out := .next (s.selectReader (integerReader w))

/-- RD_STATUS (R139): as RD_UNSIGNED. -/
def execRdStatus (w : BitVec 4) (s : State) : Out := .next (s.selectReader (unsignedReader w))

end Sys2Proof.Machine
end

