-- ==== Sys2Proof/Machine/Octets.lean ====
section
/-! DEFINITION. The rows ABSENT, OSTR, XOSTR, RD_OSTR_ANY, IS_OSTR, OSTR_LEN, PEEK and OPT (40_primitive_lexer.md). Every lexer row
writes the cursor and the pair it returns, and nothing else (R120). -/

namespace Sys2Proof.Machine

open Sys2Proof

/-- The optional-field convention's skip (R146): one byte passed, the fifth outcome `absent`. -/
def State.skipAbsent (s : State) : State :=
  if s.pos + 1 ≤ s.len then (s.advance 1).return .absent .nothing else s.return .short .nothing

/-- ABSENT (R146): one byte is skipped and the field is absent. -/
def execAbsent (s : State) : Out := .next s.skipAbsent

/-- OSTR (R125): the payload; the TL byte and the payload are passed. -/
def execOstr (_l : BitVec 4) (payload : List Byte) (s : State) : Out :=
  .next (s.accept (1 + payload.length) (.octets payload) (sentinelOf .ostr))

/-- XOSTR (R126): the payload; the length bytes and the payload are passed. A total length smaller than the number of length
bytes is `bad_length`, the cursor unchanged. -/
def execXostr (chain : List (BitVec 4)) (terminal : Byte) (payload : List Byte) (s : State) : Out :=
  .next
    (if chainValue chain terminal < chainLength chain then s.return .badLength (sentinelOf .xostr)
    else s.accept (chainLength chain + payload.length) (.octets payload) (sentinelOf .xostr))

/-- RD_OSTR_ANY (R127): RD_OSTR at type nibble 0, RD_XOSTR at 8, else `tag_mismatch`. -/
def execRdOstrAny (b : Byte) (s : State) : Out :=
  .next
    (if hi b = 0 then s.return .ok (.select .ostrLen)
    else if hi b = 8 then s.return .ok (.select .xostr)
    else s.return .tagMismatch (sentinelOf .ostrAny))

/-- IS_OSTR (R123). -/
def execIsOstr (b : Byte) (s : State) : Out := .next (s.return .ok (.flag (isOstr b)))

/-- OSTR_LEN (R124). -/
def execOstrLen (b : Byte) (s : State) : Out := .next (s.return .ok (.int (ostrLen b)))

/-- PEEK (R144): the byte at the cursor, not consumed. -/
def execPeek (b : Byte) (s : State) : Out := .next (s.return .ok (.w8 b))

/-- OPT (R146): at the absent marker as ABSENT; at any other byte the field's reader is called. -/
def execOpt (b : Byte) (s : State) : Out :=
  if b = absentMark then .next s.skipAbsent
  else
    match s.seq.reader with
    | some op => .next (s.return .ok (.select op))
    | none => .next (s.return .ok .nothing)

end Sys2Proof.Machine
end

