-- ==== Sys2Proof/Machine/Dispatch.lean ====
section
/-! DEFINITION. One arm per row of spec/opcode_table.json, each one call of its meaning. -/

namespace Sys2Proof.Machine

open Sys2Proof

def exec (i : Instr) (s : State) : Host.Outcome State Fault Refusal :=
  match i with
  | .eom => Sys2Proof.Machine.execEom s
  | .absent => Sys2Proof.Machine.execAbsent s
  | .ostr l payload => Sys2Proof.Machine.execOstr l payload s
  | .xostr chain terminal payload => Sys2Proof.Machine.execXostr chain terminal payload s
  | .u8 v => Sys2Proof.Machine.execU8 v s
  | .u16 v => Sys2Proof.Machine.execU16 v s
  | .u32 v => Sys2Proof.Machine.execU32 v s
  | .u64 v => Sys2Proof.Machine.execU64 v s
  | .i8 v => Sys2Proof.Machine.execI8 v s
  | .i16 v => Sys2Proof.Machine.execI16 v s
  | .i32 v => Sys2Proof.Machine.execI32 v s
  | .i64 v => Sys2Proof.Machine.execI64 v s
  | .list count => Sys2Proof.Machine.execList count s
  | .timeSec v => Sys2Proof.Machine.execTimeSec v s
  | .timeTs v => Sys2Proof.Machine.execTimeTs v s
  | .timeLocal => Sys2Proof.Machine.execTimeLocal s
  | .esc => Sys2Proof.Machine.execEsc s
  | .endByte => Sys2Proof.Machine.execEndByte s
  | .start => Sys2Proof.Machine.execStart s
  | .ver => Sys2Proof.Machine.execVer s
  | .msg => Sys2Proof.Machine.execMsg s
  | .bodyList => Sys2Proof.Machine.execBodyList s
  | .openRes => Sys2Proof.Machine.execOpenRes s
  | .closeRes => Sys2Proof.Machine.execCloseRes s
  | .getlistRes => Sys2Proof.Machine.execGetlistRes s
  | .unknownType t => Sys2Proof.Machine.execUnknownType t s
  | .crc c => Sys2Proof.Machine.execCrc c s
  | .entry => Sys2Proof.Machine.execEntry s
  | .value b => Sys2Proof.Machine.execValue b s
  | .rdOstrAny b => Sys2Proof.Machine.execRdOstrAny b s
  | .rdUnsigned w => Sys2Proof.Machine.execRdUnsigned w s
  | .rdInteger w => Sys2Proof.Machine.execRdInteger w s
  | .rdStatus w => Sys2Proof.Machine.execRdStatus w s
  | .isOstr b => Sys2Proof.Machine.execIsOstr b s
  | .ostrLen b => Sys2Proof.Machine.execOstrLen b s
  | .listLen b => Sys2Proof.Machine.execListLen b s
  | .peek b => Sys2Proof.Machine.execPeek b s
  | .opt b => Sys2Proof.Machine.execOpt b s
  | .decode => Sys2Proof.Machine.execDecode s
  | .crc16 => Sys2Proof.Machine.execCrc16 s

end Sys2Proof.Machine
end

