-- ==== Sys2Proof/Machine/Sequencer.lean ====
section
/-! DEFINITION. What the sequencer does when a lexer operation it ran at a field has returned (status, value): the helpers `NEED`,
`ARITY` and `OPTFIELD` (R180 to R182), the store into the field, and the order of the fields (R183 to R185, R200, R225, R227). -/

namespace Sys2Proof.Machine

open Sys2Proof

/-! Reading a returned value. Each takes the sentinel of R121 from a value of another kind, which no run meets (DESIGN CHOICE, safe:
entry 9). -/

/-- The byte sequence returned. -/
def Val.octetsOf : Val → List Byte
  | .octets bs => bs
  | .nothing | .w8 _ | .w16 _ | .w32 _ | .w64 _ | .time _ | .flag _ | .int _ | .select _ => []

/-- The 8-bit value returned. -/
def Val.byteOf : Val → BitVec 8
  | .w8 v => v
  | .nothing | .octets _ | .w16 _ | .w32 _ | .w64 _ | .time _ | .flag _ | .int _ | .select _ => 0xFF

/-- The 16-bit value returned. -/
def Val.halfOf : Val → BitVec 16
  | .w16 v => v
  | .nothing | .octets _ | .w8 _ | .w32 _ | .w64 _ | .time _ | .flag _ | .int _ | .select _ => 0xFFFF

/-- The time returned. -/
def Val.timeOf : Val → Option SmlTime
  | .time t => some t
  | .nothing | .octets _ | .w8 _ | .w16 _ | .w32 _ | .w64 _ | .flag _ | .int _ | .select _ => none

/-- A numeric value in the common 64-bit container: zero-extended, or sign-extended at its own width (R137, R138, R147). -/
def Val.extend (signed : Bool) : Val → BitVec 64
  | .w8 v => if signed then v.signExtend 64 else v.zeroExtend 64
  | .w16 v => if signed then v.signExtend 64 else v.zeroExtend 64
  | .w32 v => if signed then v.signExtend 64 else v.zeroExtend 64
  | .w64 v => v
  | .nothing | .octets _ | .time _ | .flag _ | .int _ | .select _ => 0xFFFFFFFFFFFFFFFF

/-- Whether an operation is one of the fixed-width numeric readers, and whether it is a signed one (R129 to R136). -/
def signedOf : Op → Option Bool
  | .u8 | .u16 | .u32 | .u64 => some false
  | .i8 | .i16 | .i32 | .i64 => some true
  | .opt | .ostrLen | .ostr | .xostr | .ostrAny | .unsigned | .integer | .status | .listLen | .list | .time | .value
  | .peek | .isOstr => none

/-- Whether a field's numbers are read through a dispatcher (R139, R201). -/
def Slot.dispatches : Slot → Bool
  | .leStatus | .leValue => true
  | .transactionId | .groupNo | .abortOnError | .msgType
  | .openArity | .openCodepage | .openClientId | .openReqField | .openServerId | .openRefTime | .openVersion
  | .closeArity | .closeSignature
  | .glArity | .glClientId | .glServerId | .glListName | .glSensorTime | .glValList | .glListSignature | .glGatewayTime
  | .leObjName | .leValTime | .leUnit | .leScaler | .leValueSignature => false

/-- What a dispatching reader returns once the reader it selected has returned `r` (R137, R138): the 64-bit value, or the status
with `ones(64)` (R121). -/
def dispatched (op : Op) (r : Ret) : Ret :=
  match signedOf op with
  | none => r
  | some signed =>
    if r.status = .ok then { r with val := .w64 (r.val.extend signed) } else { r with val := .w64 0xFFFFFFFFFFFFFFFF }

/-- The value of a list entry by the reader that read it (R201). -/
def entryValue (op : Op) (v : Val) : EntryValue :=
  match signedOf op with
  | none => .str v.octetsOf
  | some true => .int (v.extend true)
  | some false => .uint (v.extend false)

/-- `ARITY`'s comparison (R181). -/
def State.checkArity (s : State) (f : Slot) (n : BitVec 8) : State :=
  match f.arity with
  | none => s
  | some (expected, code) => if n = expected then s else s.warn code none

/-- The read of the field succeeded with `v`: the store (R180, R182 to R185, R200, R225, R227). -/
def State.store (s : State) (f : Slot) (op : Op) (v : Val) : State :=
  match f with
  | .transactionId => s.setEnv { s.env with transactionId := v.octetsOf }
  | .groupNo => s.setEnv { s.env with groupNo := v.byteOf }
  | .abortOnError => s.setEnv { s.env with abortOnError := v.byteOf }
  | .msgType => s.setEnv { s.env with msgType := v.halfOf }
  | .openArity => s.checkArity f v.byteOf
  | .openCodepage => s.updateOpen fun r => { r with codepage := some v.octetsOf }
  | .openClientId => s.updateOpen fun r => { r with clientId := some v.octetsOf }
  | .openReqField => s.updateOpen fun r => { r with reqField := v.octetsOf }
  | .openServerId => s.updateOpen fun r => { r with serverId := v.octetsOf }
  | .openRefTime => s.updateOpen fun r => { r with refTime := v.timeOf }
  | .openVersion => s.updateOpen fun r => { r with smlVersion := v.byteOf }
  | .closeArity => s.checkArity f v.byteOf
  | .closeSignature => s.updateClose fun r => { r with globalSignature := some v.octetsOf }
  | .glArity => s.checkArity f v.byteOf
  | .glClientId => s.updateList fun r => { r with clientId := some v.octetsOf }
  | .glServerId => s.updateList fun r => { r with serverId := v.octetsOf }
  | .glListName => s.updateList fun r => { r with listName := some v.octetsOf }
  | .glSensorTime => s.updateList fun r => { r with actSensorTime := v.timeOf }
  | .glValList => s.setEntriesLeft v.byteOf.toNat
  | .glListSignature => s.updateList fun r => { r with listSignature := some v.octetsOf }
  | .glGatewayTime => s.updateList fun r => { r with actGatewayTime := v.timeOf }
  | .leObjName => s.updateEntry fun e => { e with objName := v.octetsOf }
  | .leStatus => s.updateEntry fun e => { e with status := some (v.extend false) }
  | .leValTime => s.updateEntry fun e => { e with valTime := v.timeOf }
  | .leUnit => s.updateEntry fun e => { e with unit := some v.byteOf }
  | .leScaler => s.updateEntry fun e => { e with scaler := v.byteOf }
  | .leValue => s.updateEntry fun e => { e with value := entryValue op v }
  | .leValueSignature => s.updateEntry fun e => { e with valueSignature := some v.octetsOf }

/-- The warning for a field whose read failed on its tag: the arity check's own code (R181), else W_FIELD_TAG (R180). -/
def State.warnField (s : State) (f : Slot) : State :=
  match f.arity with
  | some (_, code) => s.warn code none
  | none => s.warn .wFieldTag f.fieldId

/-- The read of the field failed on its tag or its length (R180: "the field keeps the initial value of its record"). The envelope
registers take the sentinel (R225, R227, R316), the value list's count 0 (R185). -/
def State.missField (s : State) (f : Slot) : State :=
  let s := s.warnField f
  match f with
  | .transactionId => s.setEnv { s.env with transactionId := [] }
  | .groupNo => s.setEnv { s.env with groupNo := 0xFF }
  | .abortOnError => s.setEnv { s.env with abortOnError := 0xFF }
  | .msgType => s.setEnv { s.env with msgType := 0xFFFF }
  | .glValList => s.setEntriesLeft 0
  | .openArity | .openCodepage | .openClientId | .openReqField | .openServerId | .openRefTime | .openVersion
  | .closeArity | .closeSignature
  | .glArity | .glClientId | .glServerId | .glListName | .glSensorTime | .glListSignature | .glGatewayTime
  | .leObjName | .leStatus | .leValTime | .leUnit | .leScaler | .leValue | .leValueSignature => s

/-- "if length(…) = 0: warn(code, field)" (R183, R185). -/
def State.warnEmpty (s : State) (bs : List Byte) (code : EventCode) (field : FieldId) : State :=
  if bs.isEmpty then s.warn code (some field) else s

/-- The value list's loop (R185): another entry, or the list signature. -/
def State.nextEntry (s : State) : State :=
  if s.entriesLeft = 0 then s.enter .glListSignature else s.goto .entryHeader

/-- The field is done: the next line of the rule it stands in (R225, R226, R227; R183; R184; R185; R200). -/
def State.nextField (s : State) (f : Slot) : State :=
  match f with
  | .transactionId => s.enter .groupNo
  | .groupNo => s.enter .abortOnError
  | .abortOnError => s.goto .bodyList
  | .msgType => s.goto .dispatch
  | .openArity => s.enter .openCodepage
  | .openCodepage => s.enter .openClientId
  | .openClientId => s.enter .openReqField
  | .openReqField => (s.warnEmpty s.currentReqField .wReqfieldEmpty .openReqField).enter .openServerId
  | .openServerId => (s.warnEmpty s.currentOpenServerId .wServeridEmpty .openServerId).enter .openRefTime
  | .openRefTime => s.enter .openVersion
  | .openVersion => s.goto .crcField
  | .closeArity => s.enter .closeSignature
  | .closeSignature => s.goto .crcField
  | .glArity => s.enter .glClientId
  | .glClientId => s.enter .glServerId
  | .glServerId => (s.warnEmpty s.currentListServerId .wServeridEmpty .glServerId).enter .glListName
  | .glListName => s.enter .glSensorTime
  | .glSensorTime => s.enter .glValList
  | .glValList => s.nextEntry
  | .glListSignature => s.enter .glGatewayTime
  | .glGatewayTime => s.goto .crcField
  | .leObjName => s.enter .leStatus
  | .leStatus => s.enter .leValTime
  | .leValTime => s.enter .leUnit
  | .leUnit => s.enter .leScaler
  | .leScaler => s.enter .leValue
  | .leValue => s.enter .leValueSignature
  | .leValueSignature => (s.setEntriesLeft (s.entriesLeft - 1)).nextEntry

/-- A reader has returned at the field (R180 `NEED`, R181, R182): `short` is Fatal(SizeError), a wrong tag or length a warning,
`absent` and `ok` go on. -/
def State.finish (s : State) (f : Slot) (op : Op) : State :=
  let r := if f.dispatches then dispatched op s.ret else s.ret
  let s := { s with ret := r }
  match r.status with
  | .short => s.raiseFatal .sizeError
  | .absent => s.nextField f
  | .tagMismatch => (s.missField f).nextField f
  | .badLength => (s.missField f).nextField f
  | .ok => (s.store f op r.val).nextField f

/-- The sequencer's next operation at the field is the reader a dispatcher selected; a dispatcher that selected none leaves the
field as it is (R201: "field left unset"). -/
def State.follow (s : State) (f : Slot) : State :=
  match s.ret.val with
  | .select op => s.goto (.field f op)
  | .nothing | .octets _ | .w8 _ | .w16 _ | .w32 _ | .w64 _ | .time _ | .flag _ | .int _ => s.nextField f

/-- `RD_OSTR` after OSTR_LEN (R125): a negative length is the tag mismatch. -/
def State.afterOstrLen (s : State) (f : Slot) : State :=
  match s.ret.val with
  | .int n =>
    if n < 0 then (s.return .tagMismatch (.octets [])).finish f .ostrLen else s.goto (.field f .ostr)
  | .nothing | .octets _ | .w8 _ | .w16 _ | .w32 _ | .w64 _ | .time _ | .flag _ | .select _ => s.finish f .ostrLen

/-- `RD_LIST` after LIST_LEN (R140, R141): 0xFF is the tag mismatch. -/
def State.afterListLen (s : State) (f : Slot) : State :=
  if s.ret.val.byteOf = 0xFF then (s.return .tagMismatch (.w8 0xFF)).finish f .listLen else s.goto (.field f .list)

/-- The reference-time probe after PEEK (R183): the absent marker is skipped. -/
def State.afterPeek (s : State) (f : Slot) : State :=
  if s.ret.val.byteOf = absentMark then (s.advance 1).nextField f else s.goto (.field f .isOstr)

/-- The reference-time probe after IS_OSTR (R183): an octet-string tag means absent, the cursor unchanged, a warning. -/
def State.afterIsOstr (s : State) (f : Slot) : State :=
  if s.ret.val = .flag true then (s.warn .wReftimeProbe (some .openRefTime)).nextField f else s.goto (.field f .time)

/-- The operation `op` has returned at the field `f`: what the sequencer does with it. -/
def State.settle (s : State) (f : Slot) (op : Op) : State :=
  if s.ret.status = .ok then
    match op with
    | .ostrLen => s.afterOstrLen f
    | .listLen => s.afterListLen f
    | .peek => s.afterPeek f
    | .isOstr => s.afterIsOstr f
    | .opt | .ostrAny | .unsigned | .integer | .status | .value => s.follow f
    | .ostr | .xostr | .u8 | .u16 | .u32 | .u64 | .i8 | .i16 | .i32 | .i64 | .list | .time => s.finish f op
  else s.finish f op

end Sys2Proof.Machine
end

