-- ==== Sys2Proof/Machine/Run.lean ====
section
/-! DEFINITION. Fetching and running: the context and the bytes at the sequencer's position, the CMD register's acceptance (R22, R314), one
step of the sequencer (R25), a whole command (R320), and the placing of an opcode-table word. -/

namespace Sys2Proof.Machine

open Sys2Proof

/-- The context in which the next bytes are read; `none` where no operation is next (R95). -/
def Position.ctx : Position → Option Ctx
  | .idle => none
  | .seekStart => some .seekStart
  | .verifyHeader => some .version
  | .messageLoop => some .messageHeader
  | .field _ op => some (.lex op)
  | .bodyList => some .bodyList
  | .dispatch => some .messageType
  | .entryHeader => some .entryHeader
  | .crcField => some .crcField
  | .eom => some .eom
  | .endEscape => some .endEscape
  | .endByte => some .endByte
  | .seekEnd => none
  | .done => none
  | .error => none

/-- The bytes of the next instruction: those from the cursor on; in VerifyHeader those behind the escape (R223); in DispatchBody
the message-type field just read, whose value ENV.msgType holds (R227, R232). -/
def State.fetchBytes (s : State) : List Byte :=
  match s.seq with
  | .verifyHeader => s.bytesFrom (s.pos + 4)
  | .dispatch => 0x63 :: toBigEndian 2 s.env.msgType.toNat
  | .idle | .seekStart | .messageLoop | .field _ _ | .bodyList | .entryHeader | .crcField | .eom | .endEscape | .endByte
  | .seekEnd | .done | .error => s.window

/-- What the sequencer adds around an instruction that answered next: at a field, the store and the move of `settle`. -/
def settleOut (p : Position) (o : Out) : Out :=
  match p with
  | .field f op =>
    match o with
    | .next s => .next (s.settle f op)
    | .fault r => .fault r
    | .refused r => .refused r
  | .idle | .seekStart | .verifyHeader | .messageLoop | .bodyList | .dispatch | .entryHeader | .crcField | .eom | .endEscape
  | .endByte | .seekEnd | .done | .error => o

/-- The value beside a failed read's status at a field (R121). -/
def sentinelAt (f : Slot) (op : Op) : Val := if op = .opt then sentinelOf f.reader else sentinelOf op

/-- The bytes do not read as the position's instruction. At a field the reader has failed with its status (R122: nothing consumed).
Elsewhere the position's check runs on whatever stands there: its rule says what a wrong byte does. -/
def State.unread (s : State) (e : ReadFail) : Out :=
  match s.seq with
  | .field f op => .next ((s.return (failStatus e) (sentinelAt f op)).settle f op)
  | .seekStart => exec .start s
  | .verifyHeader => exec .ver s
  | .messageLoop => exec .msg s
  | .bodyList => exec .bodyList s
  | .dispatch => exec (.unknownType s.env.msgType) s
  | .entryHeader => exec .entry s
  | .crcField => .next (s.crcUnread e)
  | .eom => exec .eom s
  | .endEscape => exec .esc s
  | .endByte => exec .endByte s
  | .seekEnd => .next (s.goto .done)
  | .idle | .done | .error => .next s

/-- One step of the sequencer. Resting it waits (R310); in SeekEnd it goes to Done (R236); else it decodes and runs the next
instruction. -/
def State.sequence (s : State) : Out :=
  match s.seq.ctx with
  | some c =>
    match decode c s.fetchBytes with
    | .ok i => settleOut s.seq (exec i s)
    | .error e => s.unread e
  | none => if s.seq = .seekEnd then .next (s.goto .done) else .next s

/-- The pending write is taken out of CMD. -/
def State.clearCmd (s : State) : State := { s with cmd := none }

/-- A write to CMD (R22, R314): the command it encodes runs if STATE is resting; a reserved value, or a write while STATE is running,
is refused and changes nothing. -/
def State.acceptCmd (s : State) (b : Byte) : Out :=
  if s.resting then
    match decode .command [b] with
    | .ok i => exec i s.clearCmd
    | .error _ => .next s.clearCmd
  else .next s.clearCmd

/-- One step of SMLFD. -/
def State.stepOnce (s : State) : Out :=
  match s.cmd with
  | some b => s.acceptCmd b
  | none => s.sequence

/-- `n` steps. -/
def State.steps (s : State) : (n : Nat) → Out
  | 0 => .next s
  | n + 1 =>
    match s.stepOnce with
    | .next t => t.steps n
    | .fault r => .fault r
    | .refused r => .refused r

/-- A whole command as one act (R320): `fuel` steps at most, until the block rests with no command pending. -/
def State.runCommand (s : State) : (fuel : Nat) → Out
  | 0 => .next s
  | fuel + 1 =>
    if s.resting ∧ s.cmd = none then .next s
    else
      match s.stepOnce with
      | .next t => t.runCommand fuel
      | .fault r => .fault r
      | .refused r => .refused r

/-! An opcode-table word, placed where the next step fetches (entry 8). -/

/-- A field at which an operation is next. -/
def slotFor : Op → Slot
  | .opt => .openCodepage
  | .ostrLen | .ostr => .transactionId
  | .xostr | .ostrAny => .closeSignature
  | .u8 => .groupNo
  | .u16 => .msgType
  | .i8 => .leScaler
  | .u32 | .u64 | .i16 | .i32 | .i64 | .unsigned | .integer | .value => .leValue
  | .status => .leStatus
  | .listLen | .list => .openArity
  | .time => .glSensorTime
  | .peek | .isOstr => .openRefTime

/-- The position whose next instruction is read in a context. -/
def positionFor : Ctx → Position
  | .command => .idle
  | .seekStart => .seekStart
  | .version => .verifyHeader
  | .messageHeader => .messageLoop
  | .bodyList => .bodyList
  | .messageType => .dispatch
  | .entryHeader => .entryHeader
  | .crcField => .crcField
  | .eom => .eom
  | .endEscape => .endEscape
  | .endByte => .endByte
  | .lex op => .field (slotFor op) op

/-- The bytes `bs` in BUF from offset 0, LEN their number, the cursor at `p`, the sequencer at the context's position. -/
def State.placeBytes (s : State) (c : Ctx) (bs : List Byte) (p : Nat) : State :=
  { s with buf := s.buf.writeAll 0 bs, len := bs.length, pos := p, cmd := none, seq := positionFor c }

/-- The bytes `bs` where the next step fetches an instruction of context `c`. -/
def State.placeFor (s : State) (c : Ctx) (bs : List Byte) : State :=
  match c with
  | .command => { s with cmd := bs.head?, seq := .idle }
  | .version => s.placeBytes c (escBytes ++ bs) 0
  | .messageType =>
    (s.placeBytes c bs 3).setEnv { s.env with msgType := BitVec.ofNat 16 (ofBigEndian ((bs.drop 1).take 2)) }
  | .seekStart | .messageHeader | .bodyList | .entryHeader | .crcField | .eom | .endEscape | .endByte | .lex _ =>
    s.placeBytes c bs 0

/-- An opcode-table word, placed where the next step fetches; a word that is no instruction changes nothing. -/
def State.placeTableWord (s : State) (nbits w : Nat) : State :=
  match tableWord nbits w with
  | none => s
  | some (i, bs) => s.placeFor i.ctx bs

end Sys2Proof.Machine
end

