-- ==== Sys2Proof/Machine/Step.lean ====
section
/-! DEFINITION. The step of SMLFD and the placing of one instruction for it; both only call Machine/Run.lean. -/

namespace Sys2Proof.Machine

/-- One step: a pending CMD write is taken or refused (R22, R314), else the sequencer runs its next instruction (R25). -/
def step (s : State) : Host.Outcome State Fault Refusal := s.stepOnce

/-- `s` with one opcode-table word placed so that the next step fetches and runs exactly it (entry 8). -/
def State.withFetchWord (s : State) (nbits w : Nat) : State := s.placeTableWord nbits w

end Sys2Proof.Machine
end

