-- ==== Sys2Proof/Machine/HostPort.lean ====
section
/-! DEFINITION. The host's side of the register interface (R41, R312, R313, R314): what it may write while the block is ready, the CMD write,
the load of a telegram, and a read of BUF. The other registers are read as the fields of State. -/

namespace Sys2Proof.Machine

open Sys2Proof

/-- Whether an offset or a length is below 2^CW, where the configuration fixes CW (R10, R23). -/
def Cfg.fits (c : Cfg) (n : Nat) : Bool :=
  match c.cw with
  | none => true
  | some w => decide (n < 2 ^ w)

/-- Whether the host may act: STATE is resting (R41) and no CMD write waits for its step. In the spec a CMD write is the command (R22,
R320) and no host act falls behind it (R72, R74); that the block counts as running from the write on, though STATE still reads as
resting until the step takes it, is the model's choice (DESIGN CHOICE, safe: entries 3 and 7). -/
def State.ready (s : State) : Bool := s.resting && s.cmd.isNone

/-- A write of a register the host owns: allowed while the block is ready (R41, R72), of a value that fits (R10). What the spec leaves
undefined (R315) or requires of the host (R10) is refused by name (DESIGN CHOICE, safe: entries 4 and 7). -/
def State.hostWrite (s : State) (n : Nat) (t : State) : Out :=
  if s.ready then (if Cfg.fits s.cfg n then .next t else .refused .exceedsCursorWidth)
  else .refused .hostWriteWhileRunning

/-- The host writes `BUF[a]`. -/
def hostWriteBuf (a : Nat) (b : Byte) (s : State) : Out := s.hostWrite a { s with buf := s.buf.write a b }

/-- The host writes `LEN` (R23). -/
def hostWriteLen (n : Nat) (s : State) : Out := s.hostWrite n { s with len := n }

/-- The host writes `CRCOP.start` (R28). -/
def hostWriteCrcStart (n : Nat) (s : State) : Out := s.hostWrite n { s with crcop := { s.crcop with start := n } }

/-- The host writes `CRCOP.len` (R28). -/
def hostWriteCrcLen (n : Nat) (s : State) : Out := s.hostWrite n { s with crcop := { s.crcop with len := n } }

/-- The host writes `CMD`: a command written while the block is ready is held for the next step; a reserved value, and a write while STATE
is running, is refused and changes nothing (R22, R314). A write behind one that no step has taken yet is refused too, so that a command
once started is not cancelled (R74; the spec has no such moment: DESIGN CHOICE, safe: entry 3). -/
def hostWriteCmd (b : Byte) (s : State) : Out :=
  if s.ready then
    match decode .command [b] with
    | .ok _ => .next { s with cmd := some b }
    | .error _ => .next s
  else .next s

/-- The host reads `BUF[a]` (R61: defined for `a < LEN`; a read beyond answers a fault, and a read while STATE is running answers the byte:
DESIGN CHOICE, safe: entry 10). -/
def hostReadBuf (a : Nat) (s : State) : Except Fault Byte :=
  if a < s.len then .ok (s.buf.byte a) else .error (.bufferBound a)

/-- R313's preparation of a DECODE as one act: the bytes in BUF from offset 0, their number in LEN, then 01 in CMD. Like each of the writes
it stands for, it is refused by name while the block is not ready (R63, R315) and for a number of bytes that is not below 2^CW (R10)
(DESIGN CHOICE, safe: entries 4 and 7). -/
def State.loadTelegram (s : State) (bs : List Byte) : Out :=
  s.hostWrite bs.length { s with buf := s.buf.writeAll 0 bs, len := bs.length, cmd := some 0x01 }

end Sys2Proof.Machine
end

