-- ==== Sys2Proof/Machine/Query.lean ====
section
/-! DEFINITION. The Query Interface (45_query_interface.md): host-side pure functions over the Document (R8, R260 to R263). No rule of the
block uses them. -/

namespace Sys2Proof.Machine

open Sys2Proof

/-- `getElementByObis` (R260): the first entry, lists in the order appended, entries in theirs, whose name is the code. The code is six
bytes by its type, so a name of another length never matches (corner case ii). -/
def getElementByObis (d : Document) (code : Vector Byte 6) : Option ListEntry :=
  (d.lists.flatMap (·.entries)).find? (fun e => e.objName = code.toList)

/-- `UNIT_STR`, `getUnitAsString` (R202, R261). -/
def getUnitAsString (u : BitVec 8) : String :=
  if u = 0x1B then "W" else if u = 0x1E then "Wh" else ""

/-- The symbol of an entry's unit; an absent unit has the empty string (R202). -/
def ListEntry.unitString (e : ListEntry) : String :=
  match e.unit with
  | some u => getUnitAsString u
  | none => ""

/-- The number an entry's value stands for (R262): signed, unsigned, or none for a string or an unset value. -/
def ListEntry.number (e : ListEntry) : Option Int :=
  match e.value with
  | .int v => some v.toInt
  | .uint v => some (Int.ofNat v.toNat)
  | .str _ => none
  | .unset => none

/-- `effective` (R262): value times ten to the scaler, exactly. -/
def effective (e : ListEntry) : Option Rat :=
  e.number.map fun v => (v : Rat) * (10 : Rat) ^ e.scaler.toInt

end Sys2Proof.Machine
end

