-- ==== Sys2Proof/Safety.lean ====
section
/-! DEFINITION. What the claims speak of: the operations a field can be at, the invariants that every step keeps (R24, R26, R27, R33,
R163, R284, R285, R290, R291), the relations between states, and a valid telegram (R319). -/

namespace Sys2Proof.Machine

open Sys2Proof

/-! Legal positions. -/

/-- The operations that a reader's run goes through, itself first (R125, R127, R137 to R141, R183, R201). -/
def readerOps : Op → List Op
  | .ostrLen => [.ostrLen, .ostr]
  | .ostrAny => [.ostrAny, .ostrLen, .ostr, .xostr]
  | .unsigned => [.unsigned, .u8, .u16, .u32, .u64]
  | .status => [.status, .u8, .u16, .u32, .u64]
  | .integer => [.integer, .i8, .i16, .i32, .i64]
  | .listLen => [.listLen, .list]
  | .value => [.value, .ostrLen, .ostr, .integer, .i8, .i16, .i32, .i64, .unsigned, .u8, .u16, .u32, .u64]
  | .peek => [.peek, .isOstr, .time]
  | .opt => [.opt]
  | .ostr => [.ostr]
  | .xostr => [.xostr]
  | .u8 => [.u8]
  | .u16 => [.u16]
  | .u32 => [.u32]
  | .u64 => [.u64]
  | .i8 => [.i8]
  | .i16 => [.i16]
  | .i32 => [.i32]
  | .i64 => [.i64]
  | .list => [.list]
  | .time => [.time]
  | .isOstr => [.isOstr]

/-- The operations the sequencer can be about to run at a field. -/
def Slot.ops (f : Slot) : List Op := if f.optional then .opt :: readerOps f.reader else readerOps f.reader

/-- A position that the rules can reach: at a field, one of the field's operations. -/
def Position.legal : Position → Bool
  | .field f op => f.ops.contains op
  | .idle | .seekStart | .verifyHeader | .messageLoop | .bodyList | .dispatch | .entryHeader | .crcField | .eom | .endEscape
  | .endByte | .seekEnd | .done | .error => true

/-- A position inside a message, from its first field to its CRC field. -/
def Position.inMessage : Position → Bool
  | .field _ _ | .bodyList | .dispatch | .entryHeader | .crcField => true
  | .idle | .seekStart | .verifyHeader | .messageLoop | .eom | .endEscape | .endByte | .seekEnd | .done | .error => false

/-- A position behind the CRC field of a message. -/
def Position.pastCrc : Position → Bool
  | .eom | .endEscape | .endByte => true
  | .field _ _ | .bodyList | .dispatch | .entryHeader | .crcField
  | .idle | .seekStart | .verifyHeader | .messageLoop | .seekEnd | .done | .error => false

/-- A position that only the finishing message reaches: its body and its closing sequence (R184, R232, R235). -/
def Position.finishing : Position → Bool
  | .field .closeArity _ | .field .closeSignature _ | .endEscape | .endByte => true
  | .field .transactionId _ | .field .groupNo _ | .field .abortOnError _ | .field .msgType _
  | .field .openArity _ | .field .openCodepage _ | .field .openClientId _ | .field .openReqField _ | .field .openServerId _
  | .field .openRefTime _ | .field .openVersion _
  | .field .glArity _ | .field .glClientId _ | .field .glServerId _ | .field .glListName _ | .field .glSensorTime _
  | .field .glValList _ | .field .glListSignature _ | .field .glGatewayTime _
  | .field .leObjName _ | .field .leStatus _ | .field .leValTime _ | .field .leUnit _ | .field .leScaler _ | .field .leValue _
  | .field .leValueSignature _
  | .bodyList | .dispatch | .entryHeader | .crcField | .eom
  | .idle | .seekStart | .verifyHeader | .messageLoop | .seekEnd | .done | .error => false

/-! The cursor (R24, R163). -/

/-- While STATE is running the cursor is inside the buffer (R24), starts at 0 (R220), and has passed the message's first byte
(R163: "`ENV.crcFieldStart >= ENV.msgStart + 1` always"). -/
structure State.CursorInv (s : State) : Prop where
  legal : s.seq.legal = true
  inBuffer : s.resting = false → s.pos ≤ s.len
  atStart : s.seq = .seekStart → s.pos = 0
  inMessage : s.seq.inMessage = true → s.env.msgStart < s.pos
  pastCrc : s.seq.pastCrc = true → s.env.msgStart < s.env.crcFieldStart

/-! The event log and the flags (R27, R284, R285). -/

/-- The severity of an event code (R285). -/
def EventCode.severity : EventCode → EventSeverity
  | .wArityOpen | .wArityClose | .wArityGetlist | .wArityEntry | .wArityBody
  | .wFieldTag | .wReqfieldEmpty | .wServeridEmpty | .wReftimeProbe | .wValueUnsupported
  | .wEom | .wEndEscape | .wEndByte => .warning
  | .eCrcMismatch | .fHeaderMismatch | .fSyntaxError | .fSizeError | .fUnknownType => .error

/-- The codes of the fatal errors (R285). -/
def EventCode.fatal : EventCode → Bool
  | .fHeaderMismatch | .fSyntaxError | .fSizeError | .fUnknownType => true
  | .wArityOpen | .wArityClose | .wArityGetlist | .wArityEntry | .wArityBody
  | .wFieldTag | .wReqfieldEmpty | .wServeridEmpty | .wReftimeProbe | .wValueUnsupported
  | .wEom | .wEndEscape | .wEndByte | .eCrcMismatch => false

/-- Every event has the severity of its code; WARN says that a warning is in the log, CRC_ERR that a CRC mismatch is. -/
structure State.LogInv (s : State) : Prop where
  severities : ∀ e ∈ s.ev, e.severity = e.code.severity
  warned : s.flags.warn = true ↔ ∃ e ∈ s.ev, e.severity = .warning
  crcErr : s.flags.crcErr = true ↔ ∃ e ∈ s.ev, e.code = .eCrcMismatch

/-! The outcome of a command (R26, R238, R270, R290, R291). -/

/-- The event that a fatal error logs at the cursor `p` (R290). -/
def FatalCode.logged (c : FatalCode) (p : Nat) : Event where
  severity := .error
  code := c.event
  field := none
  loc := p

/-- In Error, RESULT is a fatal code whose event is the last of the log, logged at the cursor, and no other event is fatal;
elsewhere RESULT is Ok and no event is fatal. -/
structure State.OutcomeInv (s : State) : Prop where
  failed : s.seq = .error →
    ∃ c : FatalCode, s.result = c.result ∧ s.ev.getLast? = some (c.logged s.pos) ∧ ∀ e ∈ s.ev.dropLast, e.code.fatal = false
  fine : s.seq ≠ .error → s.result = .ok ∧ ∀ e ∈ s.ev, e.code.fatal = false

/-! The finishing message (R232, R235). -/

/-- FINISHED says that a PublicClose.Response has been dispatched, and the closing steps are taken only then. -/
structure State.FinishInv (s : State) : Prop where
  closed : s.flags.finished = s.doc.closed.isSome
  finishing : s.seq.finishing = true → s.flags.finished = true

/-! The entries (R33, R185). -/

/-- How many entries the GetListResponse being filled has. -/
def State.currentEntries (s : State) : Nat :=
  match s.doc.lists.getLast? with
  | some r => r.entries.length
  | none => 0

/-- A field of GetList.Response in front of the entries. -/
def Slot.beforeEntries : Slot → Bool
  | .glArity | .glClientId | .glServerId | .glListName | .glSensorTime | .glValList => true
  | .transactionId | .groupNo | .abortOnError | .msgType
  | .openArity | .openCodepage | .openClientId | .openReqField | .openServerId | .openRefTime | .openVersion
  | .closeArity | .closeSignature | .glListSignature | .glGatewayTime
  | .leObjName | .leStatus | .leValTime | .leUnit | .leScaler | .leValue | .leValueSignature => false

/-- A field of a list entry. -/
def Slot.inEntry : Slot → Bool
  | .leObjName | .leStatus | .leValTime | .leUnit | .leScaler | .leValue | .leValueSignature => true
  | .transactionId | .groupNo | .abortOnError | .msgType
  | .openArity | .openCodepage | .openClientId | .openReqField | .openServerId | .openRefTime | .openVersion
  | .closeArity | .closeSignature
  | .glArity | .glClientId | .glServerId | .glListName | .glSensorTime | .glValList | .glListSignature | .glGatewayTime => false

/-- No GetListResponse has more than CAP_ENTRIES = 15 entries (R33, R10): those decoded and those still to come are at most 15. -/
structure State.EntryInv (s : State) : Prop where
  bound : ∀ r ∈ s.doc.lists, r.entries.length ≤ Config.capEntries
  before : ∀ f op, s.seq = .field f op → f.beforeEntries = true → s.currentEntries = 0
  header : s.seq = .entryHeader → 0 < s.entriesLeft ∧ s.currentEntries + s.entriesLeft ≤ Config.capEntries
  inside : ∀ f op, s.seq = .field f op → f.inEntry = true →
    0 < s.entriesLeft ∧ s.currentEntries + s.entriesLeft ≤ Config.capEntries + 1

/-- All the invariants, and the canonical form of BUF. -/
structure State.Inv (s : State) : Prop where
  buffer : s.buf.wf
  cursor : s.CursorInv
  log : s.LogInv
  outcome : s.OutcomeInv
  finish : s.FinishInv
  entries : s.EntryInv

/-! Reading numbers, in the spec's own terms. -/

/-- `MemRead(a, n)` (R14, R64): `BUF[a] * 256^(n-1) + ... + BUF[a+n-1]`. -/
def State.memRead (s : State) (a : Nat) : (n : Nat) → Nat
  | 0 => 0
  | n + 1 => (s.buf.byte a).toNat * 256 ^ n + State.memRead s (a + 1) n

/-- The number whose nibbles are given, most significant first (R67, R85): `n_1 * 16^(k-1) + ... + n_k`. -/
def ofNibbles : List (BitVec 4) → Nat
  | [] => 0
  | n :: ns => n.toNat * 16 ^ ns.length + ofNibbles ns

/-- The whole of `RD_NUM(tag, w)` (40_primitive_lexer.md section 3, R120 to R122, R145) for the operation `op` whose row is `mk`: what
its bytes decode to, in each case of the pseudocode; what the row does, at any operand; and the value of a failed read. -/
def ReadsNumber (op : Op) (tag : Byte) (w : Nat) (mk : Nat → Instr) (val : Nat → Val) (ones : Val) : Prop :=
  sentinelOf op = ones ∧
  ∀ s : State,
    (s.len ≤ s.pos → decode (.lex op) s.window = .error .short) ∧
    (s.pos < s.len → s.buf.byte s.pos ≠ tag → decode (.lex op) s.window = .error .tagMismatch) ∧
    (s.pos < s.len → s.buf.byte s.pos = tag → s.len < s.pos + 1 + w → decode (.lex op) s.window = .error .short) ∧
    (s.pos + 1 + w ≤ s.len → s.buf.byte s.pos = tag →
      decode (.lex op) s.window = .ok (mk (s.memRead (s.pos + 1) w))) ∧
    (∀ n, s.pos + 1 + w ≤ s.len →
      exec (mk n) s = .next { s with pos := s.pos + 1 + w, ret := { status := .ok, val := val n } }) ∧
    (∀ n, s.len < s.pos + 1 + w → exec (mk n) s = .next { s with ret := { status := .short, val := ones } })

/-! Fields in the bytes at the cursor, as 30_encoding.md lays them out, and reads of them. -/

/-- The tag test of each reader and dispatcher failed on `b` (R125 to R127, R129 to R139, R141, R142); the probes and the optional-field
peek test no tag (R123, R144, R146, R201). -/
def rejectsTag : Op → Byte → Prop
  | .ostrLen, b | .ostr, b => b.toNat / 16 ≠ 0
  | .xostr, b => b.toNat / 16 ≠ 8
  | .ostrAny, b => b.toNat / 16 ≠ 0 ∧ b.toNat / 16 ≠ 8
  | .u8, b => b ≠ 0x62
  | .u16, b => b ≠ 0x63
  | .u32, b => b ≠ 0x65
  | .u64, b => b ≠ 0x69
  | .i8, b => b ≠ 0x52
  | .i16, b => b ≠ 0x53
  | .i32, b => b ≠ 0x55
  | .i64, b => b ≠ 0x59
  | .unsigned, b | .status, b => b ∉ ([0x62, 0x63, 0x65, 0x69] : List Byte)
  | .integer, b => b ∉ ([0x52, 0x53, 0x55, 0x59] : List Byte)
  | .listLen, b | .list, b => b.toNat / 16 ≠ 7
  | .time, b => b ≠ 0x72
  | .value, _ | .peek, _ | .isOstr, _ | .opt, _ => False

/-- The read `op` at the cursor fails otherwise than by an exhausted buffer: on its tag, inside a time (R142), or on its length (R126). -/
def State.missesTag (s : State) (op : Op) : Prop :=
  (s.pos < s.len ∧ rejectsTag op (s.buf.byte s.pos)) ∨ decode (.lex op) s.window = .error .tagMismatch ∨
    decode (.lex op) s.window = .error .badLength

/-- The bytes at the cursor are the short octet string with the payload `p` and the length nibble `l` (R82). -/
def State.ostrAt (s : State) (l : BitVec 4) (p : List Byte) : Prop :=
  p.length = ostrPayload l ∧ ∃ rest, s.window = tlByte 0 l :: p ++ rest

/-- The bytes at the cursor are a signature with the payload `p`, `n` bytes in all, which the model reads in `k` steps (log entry 5): a
short octet string, not the absent marker, or an extended one, whose length bytes count towards its length (R85, R126). -/
def State.signatureAt (s : State) (p : List Byte) (n k : Nat) : Prop :=
  (k = 4 ∧ n = 1 + p.length ∧ ∃ l, l ≠ 1 ∧ s.ostrAt l p) ∨
  (k = 3 ∧ ∃ (chain : List (BitVec 4)) (terminal : Byte) (rest : List Byte),
    chain ≠ [] ∧ hi terminal ≠ 8 ∧ n = chain.length + 1 + p.length ∧ ofNibbles (chain ++ [lo terminal]) = n ∧
    s.window = chain.map (tlByte 8) ++ terminal :: p ++ rest)

/-- The bytes at the cursor are the `n` bytes of a SmlTime (R89, R142). -/
def State.timeAt (s : State) (time : SmlTime) (n : Nat) : Prop :=
  ∃ rest,
    (∃ v : BitVec 32, time = .secIndex v ∧ n = 8 ∧ s.window = [0x72, 0x62, 0x01, 0x65] ++ toBigEndian 4 v.toNat ++ rest) ∨
    (∃ v : BitVec 32, time = .timestamp v ∧ n = 8 ∧ s.window = [0x72, 0x62, 0x02, 0x65] ++ toBigEndian 4 v.toNat ++ rest) ∨
    (time = .localTimestamp ∧ n = 3 ∧ s.window = [0x72, 0x62, 0x03] ++ rest)

/-- A read has passed `n` bytes and returned `v` (R15, R120; `ret`: log entry 6). -/
def State.passed (s : State) (n : Nat) (v : Val) : State := { s with pos := s.pos + n, ret := { status := .ok, val := v } }

/-! Relations between states. -/

/-- Equal but for bytes of BUF at or beyond LEN, which the block cannot read (R61). -/
def State.sameBelowLen (s t : State) : Prop :=
  t = { s with buf := t.buf } ∧ ∀ a, a < s.len → t.buf.byte a = s.buf.byte a

/-- The state without the outputs that no rule reads: EV (R37), RESULT, CRC_ERR and WARN (R27), CRCOP.out. -/
def State.withoutOutputs (s : State) : State :=
  { s with
    ev := []
    result := .ok
    flags := { crcErr := false, warn := false, finished := s.flags.finished }
    crcop := { s.crcop with out := 0 } }

/-- A valid telegram, as R319 has the host check it. -/
def State.validTelegram (s : State) : Prop :=
  s.seq = .done ∧ s.result = .ok ∧ s.flags.crcErr = false ∧ s.flags.warn = false ∧ s.flags.finished = true

end Sys2Proof.Machine
end

