-- ==== Sys2Proof/Certificates/Slice0/Obligations.lean ====
section
/-! DEFINITION. The statements for the provers. Each docstring names the rule of spec/ it formalises. A next state is written as the state
before with the registers that change: all the others, and every byte of BUF, are as before. `ret` is where the model keeps the pair
(status, value) that an operation returns (R15; log entry 6), `seq` is STATE with the place inside it (R25; log entry 5). -/

open Sys2Proof Sys2Proof.Machine

/-! Encoding. -/

/-- Every well-formed instruction is read back from its bytes, whatever follows them (R80 to R93, R105, R111, R112). -/
def Obligations.DecodeEncode : Prop :=
  ∀ (i : Instr) (rest : List Byte), i.WellFormed → decode i.ctx (encode i ++ rest) = .ok i

/-- What the decoder accepts, in any context, is a well-formed instruction of that context whose encoding stands there (R81, R94). -/
def Obligations.DecodeSound : Prop :=
  ∀ (c : Ctx) (bs : List Byte) (i : Instr), decode c bs = .ok i →
    i.WellFormed ∧ i.ctx = c ∧ ∃ rest, bs = encode i ++ rest

/-- Bytes written out from 30_encoding.md and the examples of 40_primitive_lexer.md decode to what they stand for. -/
def Obligations.DecodingIsRight : Prop :=
  decode (.lex .ostr) [0x07, 0x01, 0x00, 0x01, 0x08, 0x00, 0xff] = .ok (.ostr 7 [0x01, 0x00, 0x01, 0x08, 0x00, 0xff]) ∧
  decode (.lex .xostr) [0x80, 0x04, 0xaa, 0xbb] = .ok (.xostr [0] 0x04 [0xaa, 0xbb]) ∧
  decode (.lex .u8) [0x62, 0x99] = .ok (.u8 0x99) ∧
  decode (.lex .i16) [0x53, 0xff, 0x85] = .ok (.i16 0xFF85) ∧
  decode (.lex .list) [0x76] = .ok (.list 6) ∧
  decode (.lex .time) [0x72, 0x62, 0x01, 0x65, 0x01, 0x01, 0x01, 0x01] = .ok (.timeSec 0x01010101) ∧
  decode (.lex .opt) [0x01] = .ok .absent ∧
  decode (.lex .value) [0x65] = .ok (.value 0x65) ∧
  decode .seekStart [0x1b, 0x1b, 0x1b, 0x1b, 0x01, 0x01, 0x01, 0x01] = .ok .start ∧
  decode .messageType [0x63, 0x07, 0x01] = .ok .getlistRes ∧
  decode .crcField [0x63, 0xd2, 0xe4] = .ok (.crc 0xD2E4) ∧
  decode .entryHeader [0x77] = .ok .entry ∧
  decode .command [0x02] = .ok .crc16

/-- R128: `XLEN(n)` has the least number of length bytes, they are the nibbles of `n + k`, most significant first, and `RD_XOSTR` applied
to them and a payload of `n` bytes returns the payload and advances by `n + k`. -/
def Obligations.ExtendedLengthRoundTrip : Prop :=
  ∀ payload : List Byte,
    2 ≤ xlenCount payload.length ∧
    payload.length + xlenCount payload.length < 16 ^ xlenCount payload.length ∧
    (∀ j, 2 ≤ j → j < xlenCount payload.length → 16 ^ j ≤ payload.length + j) ∧
    (xlen payload.length).length = xlenCount payload.length ∧
    (∀ j, j < xlenCount payload.length →
      (xlen payload.length)[j]? =
        some (tlByte (if j + 1 < xlenCount payload.length then 8 else 0)
          (BitVec.ofNat 4 ((payload.length + xlenCount payload.length) / 16 ^ (xlenCount payload.length - 1 - j))))) ∧
    (payload.length ≤ 253 → xlenCount payload.length = 2) ∧
    (253 < payload.length → payload.length ≤ 4092 → xlenCount payload.length = 3) ∧
    (4092 < payload.length → payload.length ≤ 65531 → xlenCount payload.length = 4) ∧
    ∀ (s : State) (rest : List Byte), s.window = xlen payload.length ++ payload ++ rest →
      ∃ chain terminal,
        decode (.lex .xostr) s.window = .ok (.xostr chain terminal payload) ∧
        exec (.xostr chain terminal payload) s =
          .next { s with
            pos := s.pos + (payload.length + xlenCount payload.length)
            ret := { status := .ok, val := .octets payload } }

/-! The CRC-16 engine. -/

/-- R167: the check value; R161's worked trace of one byte; R166 (i) on the empty range. -/
def Obligations.CrcCheckValue : Prop :=
  crc16 [0x31, 0x32, 0x33, 0x34, 0x35, 0x36, 0x37, 0x38, 0x39] = 0x906E ∧
  crc16 [0x76] = 0xE6C9 ∧
  crc16 [] = 0x0000

/-- R162: the byte-wise form with the table gives the same result for every input; its first entries. -/
def Obligations.CrcTableForm : Prop :=
  (∀ bs : List Byte, crc16Tab bs = crc16 bs) ∧
  crcTab 0 = 0x0000 ∧ crcTab 1 = 0x1189 ∧ crcTab 2 = 0x2312 ∧ crcTab 128 = 0x8408 ∧ crcTab 255 = 0x0F78

/-- R166: the empty range (i), only the bytes count (ii), and the residue of a message followed by its checksum, low byte first (iv). -/
def Obligations.CrcResidue : Prop :=
  (∀ (s : State) (start : Nat), s.crc16Of start 0 = 0x0000) ∧
  (∀ (s t : State) (a b n : Nat), (∀ j, j < n → s.buf.byte (a + j) = t.buf.byte (b + j)) → s.crc16Of a n = t.crc16Of b n) ∧
  (∀ m : List Byte, crc16 (m ++ [(crc16 m).extractLsb' 0 8, (crc16 m).extractLsb' 8 8]) = 0x0F47)

/-! Reset. -/

/-- R310 with the values of R40: reset, and the wait in Idle. That BUF lists no byte is the model's form of the contents that R40 leaves
unspecified (log entry 1); that no command waits after reset, so that the step changes nothing, is the model's too (log entry 3). Then the
registers as the host reads them: the codes of STATE (R25) with the state of each place, RESULT (R26), an event's severity (R284), and
the bits of FLAGS (R27). The places inside a state are the model's (log entry 5). -/
def Obligations.ResetValues : Prop :=
  State.reset.seq.stateReg = .idle ∧ State.reset.result = .ok ∧ State.reset.flags.word = 0 ∧ State.reset.pos = 0 ∧
  State.reset.len = 0 ∧ State.reset.crcop = { start := 0, len := 0, out := 0 } ∧
  State.reset.env =
    { msgStart := 0, transactionId := [], groupNo := 0, abortOnError := 0, msgType := 0
      crcFieldStart := 0, crcField := 0, crcComputed := 0 } ∧
  State.reset.doc = { opened := none, lists := [], closed := none } ∧ State.reset.ev = [] ∧
  (∀ a, State.reset.buf.get? a = none) ∧
  step State.reset = .next State.reset ∧
  (∀ (r : StateReg) (n : Nat),
    (r, n) ∈ [(StateReg.idle, 0), (.seekStart, 1), (.verifyHeader, 2), (.messageLoop, 3), (.readEnvelope, 4), (.dispatchBody, 5),
      (.verifyCrcAndEom, 6), (.seekEnd, 7), (.done, 8), (.error, 9)] → r.code = n) ∧
  (∀ (p : Position) (r : StateReg),
    (p, r) ∈ [(Position.idle, StateReg.idle), (.seekStart, .seekStart), (.verifyHeader, .verifyHeader), (.messageLoop, .messageLoop),
      (.bodyList, .readEnvelope), (.dispatch, .dispatchBody), (.entryHeader, .dispatchBody), (.crcField, .verifyCrcAndEom),
      (.eom, .verifyCrcAndEom), (.endEscape, .verifyCrcAndEom), (.endByte, .verifyCrcAndEom), (.seekEnd, .seekEnd), (.done, .done),
      (.error, .error)] → p.stateReg = r) ∧
  (∀ (f : Slot) (op : Op), (Position.field f op).stateReg =
    if f ∈ [Slot.transactionId, .groupNo, .abortOnError, .msgType] then .readEnvelope else .dispatchBody) ∧
  (∀ s : State, s.resting = true ↔ s.seq.stateReg.code ∈ [0, 8, 9]) ∧
  (∀ (r : ResultCode) (n : Nat),
    (r, n) ∈ [(ResultCode.ok, 0), (.headerMismatch, 1), (.syntaxError, 2), (.zeroLength, 3), (.nullInput, 4), (.sizeError, 5),
      (.unknownMessageType, 6)] → r.code = n) ∧
  (∀ (v : EventSeverity) (n : Nat),
    (v, n) ∈ [(EventSeverity.verbose, 0), (.debug, 1), (.info, 2), (.warning, 3), (.error, 4)] → v.code = n) ∧
  (∀ f : FlagReg, f.word.getLsbD 0 = f.crcErr ∧ f.word.getLsbD 1 = f.warn ∧ f.word.getLsbD 2 = f.finished)

/-- The state after reset meets every invariant of Safety.lean. -/
def Obligations.ResetKeepsInv : Prop := State.reset.Inv

/-! The lexer's rows: what they do, at every operand. -/

/-- R129 to R136: the eight fixed-width readers are `RD_NUM` at their tag and width. -/
def Obligations.FixedWidthReaders : Prop :=
  ReadsNumber .u8 0x62 1 (fun n => .u8 (BitVec.ofNat 8 n)) (fun n => .w8 (BitVec.ofNat 8 n)) (.w8 0xFF) ∧
  ReadsNumber .u16 0x63 2 (fun n => .u16 (BitVec.ofNat 16 n)) (fun n => .w16 (BitVec.ofNat 16 n)) (.w16 0xFFFF) ∧
  ReadsNumber .u32 0x65 4 (fun n => .u32 (BitVec.ofNat 32 n)) (fun n => .w32 (BitVec.ofNat 32 n)) (.w32 0xFFFFFFFF) ∧
  ReadsNumber .u64 0x69 8 (fun n => .u64 (BitVec.ofNat 64 n)) (fun n => .w64 (BitVec.ofNat 64 n)) (.w64 0xFFFFFFFFFFFFFFFF) ∧
  ReadsNumber .i8 0x52 1 (fun n => .i8 (BitVec.ofNat 8 n)) (fun n => .w8 (BitVec.ofNat 8 n)) (.w8 0xFF) ∧
  ReadsNumber .i16 0x53 2 (fun n => .i16 (BitVec.ofNat 16 n)) (fun n => .w16 (BitVec.ofNat 16 n)) (.w16 0xFFFF) ∧
  ReadsNumber .i32 0x55 4 (fun n => .i32 (BitVec.ofNat 32 n)) (fun n => .w32 (BitVec.ofNat 32 n)) (.w32 0xFFFFFFFF) ∧
  ReadsNumber .i64 0x59 8 (fun n => .i64 (BitVec.ofNat 64 n)) (fun n => .w64 (BitVec.ofNat 64 n)) (.w64 0xFFFFFFFFFFFFFFFF)

/-- R125: the whole of `RD_OSTR`. The length is `OSTR_LEN` of the tag (R124), written out: 0 at the nibbles 0 and 1. -/
def Obligations.ShortOctetString : Prop :=
  ∀ s : State,
    (s.len ≤ s.pos → decode (.lex .ostr) s.window = .error .short) ∧
    (s.pos < s.len → 16 ≤ (s.buf.byte s.pos).toNat → decode (.lex .ostr) s.window = .error .tagMismatch) ∧
    (∀ n, s.pos < s.len → (s.buf.byte s.pos).toNat < 16 → n = (s.buf.byte s.pos).toNat - 1 →
      (s.len < s.pos + 1 + n → decode (.lex .ostr) s.window = .error .short) ∧
      (s.pos + 1 + n ≤ s.len →
        decode (.lex .ostr) s.window = .ok (.ostr (lo (s.buf.byte s.pos)) (s.buf.bytes (s.pos + 1) n)))) ∧
    (∀ l payload, s.pos + 1 + payload.length ≤ s.len →
      exec (.ostr l payload) s =
        .next { s with pos := s.pos + 1 + payload.length, ret := { status := .ok, val := .octets payload } }) ∧
    (∀ l payload, s.len < s.pos + 1 + payload.length →
      exec (.ostr l payload) s = .next { s with ret := { status := .short, val := .octets [] } })

/-- R126: the whole of `RD_XOSTR`. The bytes at the cursor are a chain of `0x8n` bytes, a terminal byte of another type nibble, and the
rest; the length is the chain's number, and the length bytes count towards it. -/
def Obligations.ExtendedOctetString : Prop :=
  (∀ s : State,
    (s.len ≤ s.pos → decode (.lex .xostr) s.window = .error .short) ∧
    (s.pos < s.len → hi (s.buf.byte s.pos) ≠ 8 → decode (.lex .xostr) s.window = .error .tagMismatch) ∧
    (s.pos < s.len → (∀ b ∈ s.window, hi b = 8) → decode (.lex .xostr) s.window = .error .short) ∧
    (∀ (chain : List (BitVec 4)) (terminal : Byte) (rest : List Byte) (total : Nat),
      chain ≠ [] → hi terminal ≠ 8 → s.window = chain.map (tlByte 8) ++ terminal :: rest →
      total = ofNibbles (chain ++ [lo terminal]) →
      (total < chain.length + 1 → decode (.lex .xostr) s.window = .error .badLength) ∧
      (chain.length + 1 ≤ total → rest.length < total - (chain.length + 1) → decode (.lex .xostr) s.window = .error .short) ∧
      (chain.length + 1 ≤ total → total - (chain.length + 1) ≤ rest.length →
        decode (.lex .xostr) s.window = .ok (.xostr chain terminal (rest.take (total - (chain.length + 1))))))) ∧
  (∀ (s : State) (chain : List (BitVec 4)) (terminal : Byte) (payload : List Byte),
    (chain.length + 1 ≤ ofNibbles (chain ++ [lo terminal]) → s.pos + (chain.length + 1 + payload.length) ≤ s.len →
      exec (.xostr chain terminal payload) s =
        .next { s with
          pos := s.pos + (chain.length + 1 + payload.length)
          ret := { status := .ok, val := .octets payload } }) ∧
    (ofNibbles (chain ++ [lo terminal]) < chain.length + 1 →
      exec (.xostr chain terminal payload) s = .next { s with ret := { status := .badLength, val := .octets [] } }))

/-- R123, R124, R140, R144: the recognisers, pure functions of one byte, whose type nibble is `b / 16`; and PEEK, the byte at the cursor
without moving it, nothing at the end of the buffer. -/
def Obligations.RecognisersAndPeek : Prop :=
  ∀ s : State,
    (∀ b : Byte,
      exec (.isOstr b) s = .next { s with ret := { status := .ok, val := .flag (decide (b.toNat / 16 = 0)) } } ∧
      exec (.ostrLen b) s =
        .next { s with
          ret := {
            status := .ok
            val := .int (if b.toNat / 16 ≠ 0 then -1 else if b = 0x00 then 0 else (b.toNat % 16 : Int) - 1) } } ∧
      exec (.listLen b) s =
        .next { s with ret := { status := .ok, val := .w8 (if b.toNat / 16 = 7 then BitVec.ofNat 8 (b.toNat % 16) else 0xFF) } } ∧
      exec (.peek b) s = .next { s with ret := { status := .ok, val := .w8 b } }) ∧
    (s.len ≤ s.pos → decode (.lex .peek) s.window = .error .short) ∧
    (s.pos < s.len → decode (.lex .peek) s.window = .ok (.peek (s.buf.byte s.pos)))

/-- R127, R137, R138, R139: which reader each dispatching row selects; any other tag is `tag_mismatch` with the sentinel of R121. -/
def Obligations.DispatchingReaders : Prop :=
  ∀ s : State,
    (∀ b : Byte, exec (.rdOstrAny b) s =
      .next { s with
        ret := if b.toNat / 16 = 0 then { status := .ok, val := .select .ostrLen }
          else if b.toNat / 16 = 8 then { status := .ok, val := .select .xostr }
          else { status := .tagMismatch, val := .octets [] } }) ∧
    (∀ (w : BitVec 4) (r : Ret),
      r = (if w = 2 then { status := .ok, val := .select .u8 }
        else if w = 3 then { status := .ok, val := .select .u16 }
        else if w = 5 then { status := .ok, val := .select .u32 }
        else if w = 9 then { status := .ok, val := .select .u64 }
        else { status := .tagMismatch, val := .w64 0xFFFFFFFFFFFFFFFF }) →
      exec (.rdUnsigned w) s = .next { s with ret := r } ∧ exec (.rdStatus w) s = .next { s with ret := r }) ∧
    (∀ w : BitVec 4, exec (.rdInteger w) s =
      .next { s with
        ret := if w = 2 then { status := .ok, val := .select .i8 }
          else if w = 3 then { status := .ok, val := .select .i16 }
          else if w = 5 then { status := .ok, val := .select .i32 }
          else if w = 9 then { status := .ok, val := .select .i64 }
          else { status := .tagMismatch, val := .w64 0xFFFFFFFFFFFFFFFF } })

/-- R141: the whole of `RD_LIST`. -/
def Obligations.ListHeader : Prop :=
  ∀ s : State,
    (s.len ≤ s.pos → decode (.lex .list) s.window = .error .short) ∧
    (s.pos < s.len → (s.buf.byte s.pos).toNat / 16 ≠ 7 → decode (.lex .list) s.window = .error .tagMismatch) ∧
    (s.pos < s.len → (s.buf.byte s.pos).toNat / 16 = 7 → decode (.lex .list) s.window = .ok (.list (lo (s.buf.byte s.pos)))) ∧
    (∀ n : BitVec 4, s.pos + 1 ≤ s.len →
      exec (.list n) s = .next { s with pos := s.pos + 1, ret := { status := .ok, val := .w8 (n.zeroExtend 8) } }) ∧
    (∀ n : BitVec 4, s.len < s.pos + 1 → exec (.list n) s = .next { s with ret := { status := .short, val := .w8 0xFF } })

/-- R142, R143: the whole of `RD_TIME`, by the bytes at the cursor; a read that fails, at whatever byte, leaves the cursor. -/
def Obligations.TimeReader : Prop :=
  (∀ rest : List Byte,
    decode (.lex .time) [] = .error .short ∧
    (∀ b, b ≠ 0x72 → decode (.lex .time) (b :: rest) = .error .tagMismatch) ∧
    decode (.lex .time) [0x72] = .error .short ∧
    (∀ b, b ≠ 0x62 → decode (.lex .time) (0x72 :: b :: rest) = .error .tagMismatch) ∧
    decode (.lex .time) [0x72, 0x62] = .error .short ∧
    (∀ b : Byte, b.toNat = 0 ∨ 3 < b.toNat → decode (.lex .time) (0x72 :: 0x62 :: b :: rest) = .error .tagMismatch) ∧
    decode (.lex .time) (0x72 :: 0x62 :: 0x03 :: rest) = .ok .timeLocal ∧
    (∀ b : Byte, b.toNat = 1 ∨ b.toNat = 2 →
      decode (.lex .time) [0x72, 0x62, b] = .error .short ∧
      (∀ c, c ≠ 0x65 → decode (.lex .time) (0x72 :: 0x62 :: b :: c :: rest) = .error .tagMismatch) ∧
      (rest.length < 4 → decode (.lex .time) (0x72 :: 0x62 :: b :: 0x65 :: rest) = .error .short)) ∧
    (∀ v : BitVec 32, decode (.lex .time) ([0x72, 0x62, 0x01, 0x65] ++ toBigEndian 4 v.toNat ++ rest) = .ok (.timeSec v)) ∧
    (∀ v : BitVec 32, decode (.lex .time) ([0x72, 0x62, 0x02, 0x65] ++ toBigEndian 4 v.toNat ++ rest) = .ok (.timeTs v))) ∧
  (∀ (s : State) (v : BitVec 32),
    (s.pos + 8 ≤ s.len →
      exec (.timeSec v) s = .next { s with pos := s.pos + 8, ret := { status := .ok, val := .time (.secIndex v) } } ∧
      exec (.timeTs v) s = .next { s with pos := s.pos + 8, ret := { status := .ok, val := .time (.timestamp v) } }) ∧
    (s.pos + 3 ≤ s.len →
      exec .timeLocal s = .next { s with pos := s.pos + 3, ret := { status := .ok, val := .time .localTimestamp } })) ∧
  (∀ (s : State) (f : Slot) (e : ReadFail), s.cmd = none → s.seq = .field f .time → decode (.lex .time) s.window = .error e →
    ∃ t, step s = .next t ∧ t.pos = s.pos ∧ t.ret.status = failStatus e)

/-- R146: the absent marker is skipped; any other byte calls the field's reader, which R106 to R109 name; at the end of the buffer the read
is `short`. -/
def Obligations.OptionalConvention : Prop :=
  (∀ s : State, s.pos + 1 ≤ s.len →
    exec .absent s = .next { s with pos := s.pos + 1, ret := { status := .absent, val := .nothing } }) ∧
  (∀ (s : State) (f : Slot) (op : Op) (b : Byte), s.seq = .field f op → b ≠ 0x01 →
    exec (.opt b) s = .next { s with ret := { status := .ok, val := .select f.reader } }) ∧
  (∀ s : State,
    (s.len ≤ s.pos → decode (.lex .opt) s.window = .error .short) ∧
    (s.pos < s.len → s.buf.byte s.pos = 0x01 → decode (.lex .opt) s.window = .ok .absent) ∧
    (s.pos < s.len → s.buf.byte s.pos ≠ 0x01 → decode (.lex .opt) s.window = .ok (.opt (s.buf.byte s.pos)))) ∧
  (∀ (s : State) (f : Slot) (reader : Op), s.cmd = none → s.seq = .field f .opt → s.pos < s.len → s.buf.byte s.pos ≠ 0x01 →
    (f, reader) ∈ [(Slot.openCodepage, Op.ostrLen), (.openClientId, .ostrLen), (.openVersion, .u8),
      (.closeSignature, .ostrAny),
      (.glClientId, .ostrLen), (.glListName, .ostrLen), (.glSensorTime, .time), (.glListSignature, .ostrAny), (.glGatewayTime, .time),
      (.leStatus, .status), (.leValTime, .time), (.leUnit, .u8), (.leScaler, .i8), (.leValueSignature, .ostrAny)] →
    step s = .next { s with seq := .field f reader, ret := { status := .ok, val := .select reader } })

/-- R201: the value probe selects the reader by the type nibble; any other type draws W_VALUE_UNSUPPORTED and consumes nothing. Then the
step at the value field: the selected reader is next there, or, unsupported, the value signature. -/
def Obligations.ValueProbe : Prop :=
  (∀ (s : State) (b : Byte),
    (b.toNat / 16 = 0 → exec (.value b) s = .next { s with ret := { status := .ok, val := .select .ostrLen } }) ∧
    (b.toNat / 16 = 5 → exec (.value b) s = .next { s with ret := { status := .ok, val := .select .integer } }) ∧
    (b.toNat / 16 = 6 → exec (.value b) s = .next { s with ret := { status := .ok, val := .select .unsigned } }) ∧
    (b.toNat / 16 ≠ 0 → b.toNat / 16 ≠ 5 → b.toNat / 16 ≠ 6 →
      exec (.value b) s =
        .next { s.warn .wValueUnsupported (some .leValue) with ret := { status := .ok, val := .nothing } })) ∧
  (∀ (s : State) (h : Nat), s.cmd = none → s.seq = .field .leValue .value →
    (s.len ≤ s.pos → ∃ r, step s = .next { s.raiseFatal .sizeError with ret := r }) ∧
    (s.pos < s.len → h = (s.buf.byte s.pos).toNat / 16 →
      (∀ reader : Op, (h, reader) ∈ [(0, Op.ostrLen), (5, .integer), (6, .unsigned)] →
        step s = .next { s with seq := .field .leValue reader, ret := { status := .ok, val := .select reader } }) ∧
      (h ≠ 0 → h ≠ 5 → h ≠ 6 →
        step s = .next { s.warn .wValueUnsupported (some .leValue) with
          seq := .field .leValueSignature .opt
          ret := { status := .ok, val := .nothing } })))

/-! Errors and warnings. -/

/-- R290: taking a fatal error writes RESULT, one Error event and STATE, nothing else, and the sequencer stops. R292 with R284: a warning
appends one Warning event, with the cursor as it is, and sets WARN, nothing else. -/
def Obligations.FatalAndWarningEntry : Prop :=
  (∀ (s : State) (c : FatalCode) (r : ResultCode) (e : EventCode),
    (c, r, e) ∈ [(FatalCode.headerMismatch, ResultCode.headerMismatch, EventCode.fHeaderMismatch),
      (.syntaxError, .syntaxError, .fSyntaxError), (.sizeError, .sizeError, .fSizeError),
      (.unknownMessageType, .unknownMessageType, .fUnknownType)] →
    s.raiseFatal c =
      { s with
        result := r
        ev := s.ev ++ [{ severity := .error, code := e, field := none, loc := s.pos }]
        seq := .error } ∧
    (s.cmd = none → step (s.raiseFatal c) = .next (s.raiseFatal c))) ∧
  (∀ (s : State) (c : EventCode) (f : Option FieldId),
    s.warn c f =
      { s with
        ev := s.ev ++ [{ severity := .warning, code := c, field := f, loc := s.pos }]
        flags := { s.flags with warn := true } })

/-- R282: the default table, and every function from (check, byte) to (warn, fatal) is some policy. -/
def Obligations.PolicyTable : Prop :=
  (∀ a : Byte,
    (Policy.default.treatment .bodyListArity a = .fatal ↔ a = 0xFF) ∧
    (Policy.default.treatment .eom a = .warn ↔ a = 0xFF) ∧
    (Policy.default.treatment .endEscape a = .warn ↔ a = 0xFF) ∧
    (Policy.default.treatment .endByte a = .warn ↔ a = 0xFF) ∧
    (∀ c, Policy.uniform.treatment c a = .warn ↔ a = 0xFF) ∧
    (∀ c, Policy.alwaysWarn.treatment c a = .warn)) ∧
  (∀ f : Check → Byte → Treatment, ∃ p : Policy, ∀ c a, p.treatment c a = f c a)

/-! The Frame Decoder. -/

/-- R221, R222: SeekStart stops at the first place of its pattern, or ends in SizeError with the cursor at LEN. -/
def Obligations.SeekStartFirstMatch : Prop :=
  ∀ (s : State) (pat : List Byte),
    (s.cfg.startMode = .pattern8 ∧ pat = [0x1b, 0x1b, 0x1b, 0x1b, 0x01, 0x01, 0x01, 0x01]) ∨
      (s.cfg.startMode = .escape4Version4 ∧ pat = [0x1b, 0x1b, 0x1b, 0x1b]) →
    (∀ k, k + pat.length ≤ s.len → s.buf.bytes k pat.length = pat → (∀ j, j < k → s.buf.bytes j pat.length ≠ pat) →
      exec .start s = .next { s with pos := k, seq := .verifyHeader }) ∧
    ((∀ k, k + pat.length ≤ s.len → s.buf.bytes k pat.length ≠ pat) →
      exec .start s = .next ({ s with pos := s.len }.raiseFatal .sizeError))

/-- R223: VerifyHeader, and its last paragraph: in pattern8 mode it cannot fail after SeekStart. -/
def Obligations.VerifyHeader : Prop :=
  (∀ s : State,
    (s.len < s.pos + 8 → exec .ver s = .next (s.raiseFatal .sizeError)) ∧
    (s.pos + 8 ≤ s.len →
      s.buf.bytes s.pos 4 ≠ [0x1b, 0x1b, 0x1b, 0x1b] ∨ s.buf.bytes (s.pos + 4) 4 ≠ [0x01, 0x01, 0x01, 0x01] →
      exec .ver s = .next (s.raiseFatal .headerMismatch)) ∧
    (s.pos + 8 ≤ s.len → s.buf.bytes s.pos 4 = [0x1b, 0x1b, 0x1b, 0x1b] →
      s.buf.bytes (s.pos + 4) 4 = [0x01, 0x01, 0x01, 0x01] →
      exec .ver s = .next { s with pos := s.pos + 8, seq := .messageLoop })) ∧
  (∀ s t : State, s.cmd = none → s.cfg.startMode = .pattern8 → s.seq = .seekStart →
    step s = .next t → t.seq = .verifyHeader →
    step t = .next { t with pos := t.pos + 8, seq := .messageLoop })

/-- R224 and the first two lines of R225: the loop guard, and the message header consumed. -/
def Obligations.MessageGuard : Prop :=
  ∀ s : State,
    (s.flags.finished = true → exec .msg s = .next { s with seq := .seekEnd }) ∧
    (s.flags.finished = false → s.pos < s.len → s.buf.byte s.pos = 0x76 →
      exec .msg s =
        .next { s with
          env := { s.env with msgStart := s.pos }
          pos := s.pos + 1
          seq := .field .transactionId .ostrLen }) ∧
    (s.flags.finished = false → s.len ≤ s.pos ∨ s.buf.byte s.pos ≠ 0x76 → exec .msg s = .next { s with seq := .seekEnd })

/-- R225, R316: the group number and the abort-on-error byte, each read, missed (0xFF, a warning, nothing consumed) or cut short. -/
def Obligations.EnvelopeByteFields : Prop :=
  ∀ s : State, s.cmd = none →
    (s.seq = .field .groupNo .u8 →
      (s.pos + 2 ≤ s.len → s.buf.byte s.pos = 0x62 →
        step s = .next { s with
          pos := s.pos + 2
          env := { s.env with groupNo := s.buf.byte (s.pos + 1) }
          seq := .field .abortOnError .u8
          ret := { status := .ok, val := .w8 (s.buf.byte (s.pos + 1)) } }) ∧
      (s.pos < s.len → s.buf.byte s.pos ≠ 0x62 →
        step s = .next { s.warn .wFieldTag (some .groupNo) with
          env := { s.env with groupNo := 0xFF }
          seq := .field .abortOnError .u8
          ret := { status := .tagMismatch, val := .w8 0xFF } }) ∧
      (s.len ≤ s.pos ∨ (s.buf.byte s.pos = 0x62 ∧ s.len < s.pos + 2) →
        step s = .next { s.raiseFatal .sizeError with ret := { status := .short, val := .w8 0xFF } })) ∧
    (s.seq = .field .abortOnError .u8 →
      (s.pos + 2 ≤ s.len → s.buf.byte s.pos = 0x62 →
        step s = .next { s with
          pos := s.pos + 2
          env := { s.env with abortOnError := s.buf.byte (s.pos + 1) }
          seq := .bodyList
          ret := { status := .ok, val := .w8 (s.buf.byte (s.pos + 1)) } }) ∧
      (s.pos < s.len → s.buf.byte s.pos ≠ 0x62 →
        step s = .next { s.warn .wFieldTag (some .abortOnError) with
          env := { s.env with abortOnError := 0xFF }
          seq := .bodyList
          ret := { status := .tagMismatch, val := .w8 0xFF } }) ∧
      (s.len ≤ s.pos ∨ (s.buf.byte s.pos = 0x62 ∧ s.len < s.pos + 2) →
        step s = .next { s.raiseFatal .sizeError with ret := { status := .short, val := .w8 0xFF } }))

/-- R225: the transaction ID, two steps (OSTR_LEN, OSTR) when it is a short octet string, one when it is not. -/
def Obligations.TransactionIdField : Prop :=
  ∀ (s : State) (n : Nat), s.cmd = none → s.seq = .field .transactionId .ostrLen → s.pos < s.len →
    (n = (s.buf.byte s.pos).toNat - 1 → (s.buf.byte s.pos).toNat < 16 → s.pos + 1 + n ≤ s.len →
      s.steps 2 = .next { s with
        pos := s.pos + 1 + n
        env := { s.env with transactionId := s.buf.bytes (s.pos + 1) n }
        seq := .field .groupNo .u8
        ret := { status := .ok, val := .octets (s.buf.bytes (s.pos + 1) n) } }) ∧
    (n = (s.buf.byte s.pos).toNat - 1 → (s.buf.byte s.pos).toNat < 16 → s.len < s.pos + 1 + n →
      s.steps 2 = .next { s.raiseFatal .sizeError with ret := { status := .short, val := .octets [] } }) ∧
    (16 ≤ (s.buf.byte s.pos).toNat →
      step s = .next { s.warn .wFieldTag (some .transactionId) with
        env := { s.env with transactionId := [] }
        seq := .field .groupNo .u8
        ret := { status := .tagMismatch, val := .octets [] } })

/-- R226: the message-body list header: consumed where it is a list header at all, and a count other than 2 treated by POLICY. -/
def Obligations.BodyListCheck : Prop :=
  ∀ s : State,
    (s.len ≤ s.pos → exec .bodyList s = .next (s.raiseFatal .sizeError)) ∧
    (s.pos < s.len → s.buf.byte s.pos = 0x72 →
      exec .bodyList s = .next { s with pos := s.pos + 1, seq := .field .msgType .u16 }) ∧
    (∀ u : State, s.pos < s.len → s.buf.byte s.pos ≠ 0x72 →
      u = (if (s.buf.byte s.pos).toNat / 16 = 7 then { s with pos := s.pos + 1 } else s) →
      (s.cfg.policy.treatment .bodyListArity s.env.abortOnError = .fatal →
        exec .bodyList s = .next (u.raiseFatal .syntaxError)) ∧
      (s.cfg.policy.treatment .bodyListArity s.env.abortOnError = .warn →
        exec .bodyList s = .next { u.warn .wArityBody none with seq := .field .msgType .u16 })) ∧
    (s.cfg.policy = Policy.default →
      (s.cfg.policy.treatment .bodyListArity s.env.abortOnError = .fatal ↔ s.env.abortOnError = 0xFF))

/-- R227: the message type, read, cut short, or missed; a missed one is 0xFFFF and ends in UnknownMessageType (R232). -/
def Obligations.MessageTypeField : Prop :=
  ∀ s : State, s.cmd = none → s.seq = .field .msgType .u16 →
    (s.pos + 3 ≤ s.len → s.buf.byte s.pos = 0x63 →
      step s = .next { s with
        pos := s.pos + 3
        env := { s.env with msgType := BitVec.ofNat 16 ((s.buf.byte (s.pos + 1)).toNat * 256 + (s.buf.byte (s.pos + 2)).toNat) }
        seq := .dispatch
        ret := {
          status := .ok
          val := .w16 (BitVec.ofNat 16 ((s.buf.byte (s.pos + 1)).toNat * 256 + (s.buf.byte (s.pos + 2)).toNat)) } }) ∧
    (s.len ≤ s.pos ∨ (s.buf.byte s.pos = 0x63 ∧ s.len < s.pos + 3) →
      step s = .next { s.raiseFatal .sizeError with ret := { status := .short, val := .w16 0xFFFF } }) ∧
    (∀ t : State, s.pos < s.len → s.buf.byte s.pos ≠ 0x63 →
      t = { s.warn .wFieldTag (some .msgType) with
        env := { s.env with msgType := 0xFFFF }
        seq := .dispatch
        ret := { status := .tagMismatch, val := .w16 0xFFFF } } →
      step s = .next t ∧ s.steps 2 = .next (t.raiseFatal .unknownMessageType))

/-- R232 with the first line of R183 to R185: the four targets of the dispatch, and the dispatch itself by ENV.msgType. -/
def Obligations.DispatchBody : Prop :=
  ∀ s : State,
    exec .openRes s =
      .next { s with
        doc := { s.doc with
          opened := some { codepage := none, clientId := none, reqField := [], serverId := [], refTime := none, smlVersion := 1 } }
        seq := .field .openArity .listLen } ∧
    exec .getlistRes s =
      .next { s with
        doc := { s.doc with
          lists := s.doc.lists ++ [
            { clientId := none, serverId := [], listName := none, actSensorTime := none
              entries := [], listSignature := none, actGatewayTime := none }] }
        seq := .field .glArity .listLen } ∧
    exec .closeRes s =
      .next { s with
        flags := { s.flags with finished := true }
        doc := { s.doc with closed := some { globalSignature := none } }
        seq := .field .closeArity .listLen } ∧
    (∀ ty, exec (.unknownType ty) s = .next (s.raiseFatal .unknownMessageType)) ∧
    (s.cmd = none → s.seq = .dispatch →
      (s.env.msgType = 0x0101 → step s = exec .openRes s) ∧
      (s.env.msgType = 0x0701 → step s = exec .getlistRes s) ∧
      (s.env.msgType = 0x0201 → step s = exec .closeRes s) ∧
      (s.env.msgType ≠ 0x0101 → s.env.msgType ≠ 0x0701 → s.env.msgType ≠ 0x0201 →
        step s = .next (s.raiseFatal .unknownMessageType)))

/-- R200 with R181: an entry is appended to the list being filled, then its header is checked. `u` is the state with the new entry. -/
def Obligations.EntryHeader : Prop :=
  ∀ (s u : State),
    u = s.updateList (fun r => { r with
      entries := r.entries ++ [
        { objName := [], status := none, valTime := none, unit := none
          scaler := 0, value := .unset, valueSignature := none }] }) →
    (s.len ≤ s.pos → exec .entry s = .next (u.raiseFatal .sizeError)) ∧
    (s.pos < s.len → s.buf.byte s.pos = 0x77 →
      exec .entry s = .next { u with pos := s.pos + 1, seq := .field .leObjName .ostrLen }) ∧
    (s.pos < s.len → s.buf.byte s.pos ≠ 0x77 → (s.buf.byte s.pos).toNat / 16 = 7 →
      exec .entry s =
        .next { { u with pos := s.pos + 1 }.warn .wArityEntry none with seq := .field .leObjName .ostrLen }) ∧
    (s.pos < s.len → (s.buf.byte s.pos).toNat / 16 ≠ 7 →
      exec .entry s = .next { u.warn .wArityEntry none with seq := .field .leObjName .ostrLen })

/-- R233, R163, R164: the CRC field. `m` has the three registers written; a field that differs from the checksum, or cannot be read,
sets CRC_ERR and logs E_CRC_MISMATCH and nothing else; only a buffer that ends inside the field is fatal. -/
def Obligations.CrcField : Prop :=
  ∀ s : State,
    (∀ (c : BitVec 16) (m : State), s.pos + 3 ≤ s.len →
      m = { s with
        pos := s.pos + 3
        env := { s.env with
          crcFieldStart := s.pos
          crcField := c
          crcComputed := crc16 (s.buf.bytes s.env.msgStart (s.pos - s.env.msgStart)) }
        seq := .eom } →
      (c = (if s.cfg.crcSwap then m.env.crcComputed.extractLsb' 0 8 ++ m.env.crcComputed.extractLsb' 8 8
        else m.env.crcComputed) → exec (.crc c) s = .next m) ∧
      (c ≠ (if s.cfg.crcSwap then m.env.crcComputed.extractLsb' 0 8 ++ m.env.crcComputed.extractLsb' 8 8
        else m.env.crcComputed) →
        exec (.crc c) s = .next { m with
          flags := { s.flags with crcErr := true }
          ev := s.ev ++ [{ severity := .error, code := .eCrcMismatch, field := some .crcField, loc := s.pos + 3 }] })) ∧
    (s.cmd = none → s.seq = .crcField →
      (s.pos + 3 ≤ s.len → s.buf.byte s.pos = 0x63 →
        step s = exec (.crc (BitVec.ofNat 16 ((s.buf.byte (s.pos + 1)).toNat * 256 + (s.buf.byte (s.pos + 2)).toNat))) s) ∧
      (s.len ≤ s.pos ∨ (s.buf.byte s.pos = 0x63 ∧ s.len < s.pos + 3) →
        step s = .next ({ s with env := { s.env with crcFieldStart := s.pos } }.raiseFatal .sizeError)) ∧
      (s.pos < s.len → s.buf.byte s.pos ≠ 0x63 →
        step s = .next { s with
          env := { s.env with
            crcFieldStart := s.pos
            crcField := 0xFFFF
            crcComputed := crc16 (s.buf.bytes s.env.msgStart (s.pos - s.env.msgStart)) }
          flags := { s.flags with crcErr := true }
          ev := s.ev ++ [{ severity := .error, code := .eCrcMismatch, field := some .crcField, loc := s.pos }]
          seq := .eom }))

/-- R234: the end-of-message byte. -/
def Obligations.EomCheck : Prop :=
  ∀ (s : State) (after : Position), after = (if s.flags.finished then .endEscape else .messageLoop) →
    (s.len ≤ s.pos → exec .eom s = .next (s.raiseFatal .sizeError)) ∧
    (s.pos < s.len → s.buf.byte s.pos = 0x00 → exec .eom s = .next { s with pos := s.pos + 1, seq := after }) ∧
    (s.pos < s.len → s.buf.byte s.pos ≠ 0x00 → s.cfg.policy.treatment .eom s.env.abortOnError = .fatal →
      exec .eom s = .next (s.raiseFatal .syntaxError)) ∧
    (s.pos < s.len → s.buf.byte s.pos ≠ 0x00 → s.cfg.policy.treatment .eom s.env.abortOnError = .warn →
      exec .eom s = .next { s.warn .wEom none with seq := after }) ∧
    (s.cfg.policy = Policy.default →
      (s.cfg.policy.treatment .eom s.env.abortOnError = .warn ↔ s.env.abortOnError = 0xFF))

/-- R235: the closing escape and the end byte. -/
def Obligations.ClosingSequence : Prop :=
  ∀ s : State,
    (s.len < s.pos + 4 → exec .esc s = .next (s.raiseFatal .sizeError)) ∧
    (s.pos + 4 ≤ s.len → s.buf.bytes s.pos 4 = [0x1b, 0x1b, 0x1b, 0x1b] →
      exec .esc s = .next { s with pos := s.pos + 4, seq := .endByte }) ∧
    (s.pos + 4 ≤ s.len → s.buf.bytes s.pos 4 ≠ [0x1b, 0x1b, 0x1b, 0x1b] →
      s.cfg.policy.treatment .endEscape s.env.abortOnError = .fatal →
      exec .esc s = .next (s.raiseFatal .headerMismatch)) ∧
    (s.pos + 4 ≤ s.len → s.buf.bytes s.pos 4 ≠ [0x1b, 0x1b, 0x1b, 0x1b] →
      s.cfg.policy.treatment .endEscape s.env.abortOnError = .warn →
      exec .esc s = .next { s.warn .wEndEscape none with seq := .endByte }) ∧
    (s.len ≤ s.pos → exec .endByte s = .next (s.raiseFatal .sizeError)) ∧
    (s.pos < s.len → s.buf.byte s.pos = 0x1a → exec .endByte s = .next { s with pos := s.pos + 1, seq := .messageLoop }) ∧
    (s.pos < s.len → s.buf.byte s.pos ≠ 0x1a → s.cfg.policy.treatment .endByte s.env.abortOnError = .fatal →
      exec .endByte s = .next (s.raiseFatal .headerMismatch)) ∧
    (s.pos < s.len → s.buf.byte s.pos ≠ 0x1a → s.cfg.policy.treatment .endByte s.env.abortOnError = .warn →
      exec .endByte s = .next { s.warn .wEndByte none with seq := .messageLoop }) ∧
    (s.cfg.policy = Policy.default →
      (s.cfg.policy.treatment .endEscape s.env.abortOnError = .warn ↔ s.env.abortOnError = 0xFF) ∧
      (s.cfg.policy.treatment .endByte s.env.abortOnError = .warn ↔ s.env.abortOnError = 0xFF))

/-- R236, R237, R310: SeekEnd checks nothing and goes to Done; a resting block waits. -/
def Obligations.SeekEndAndRest : Prop :=
  ∀ s : State, s.cmd = none →
    (s.seq = .seekEnd → step s = .next { s with seq := .done }) ∧
    (s.resting = true → step s = .next s)

/-! The body decoders. -/

/-- R180, R182, R122: what a failed read does at a field. An exhausted buffer is Fatal(SizeError). A tag the reader does not take
(`rejectsTag`), a time that breaks off inside, and a bad length consume nothing, write no record, warn, and go on; at a field of the body
layouts (R106 to R109) there is exactly the one event, W_FIELD_TAG with the field, and the next field is read at the same byte. A required
string that stays empty draws its own warning as well (R183, corner case i). The list headers: ArityChecks, ValueListCount; the
envelope's registers: EnvelopeByteFields, TransactionIdField, MessageTypeField. -/
def Obligations.FailedFieldRead : Prop :=
  ∀ (s : State) (f : Slot) (op : Op), s.cmd = none → s.seq = .field f op →
    (decode (.lex op) s.window = .error .short →
      ∃ r : Ret, r.status = .short ∧ step s = .next { s.raiseFatal .sizeError with ret := r }) ∧
    (s.missesTag op →
      ∃ t : State, step s = .next t ∧ (t.ret.status = .tagMismatch ∨ t.ret.status = .badLength) ∧
        t.pos = s.pos ∧ t.doc = s.doc ∧ t.result = s.result ∧ t.seq ≠ .error ∧ t.flags.warn = true ∧
        (∃ new, new ≠ [] ∧ t.ev = s.ev ++ new) ∧
        (∀ (field : FieldId) (next : Position),
          (f, field, next) ∈ [(Slot.openCodepage, FieldId.openCodepage, Position.field .openClientId .opt),
            (.openClientId, .openClientId, .field .openReqField .ostrLen),
            (.openRefTime, .openRefTime, .field .openVersion .opt), (.openVersion, .openVersion, .crcField),
            (.closeSignature, .closeSignature, .crcField),
            (.glClientId, .glClientId, .field .glServerId .ostrLen), (.glListName, .glListName, .field .glSensorTime .opt),
            (.glSensorTime, .glSensorTime, .field .glValList .listLen),
            (.glListSignature, .glListSignature, .field .glGatewayTime .opt), (.glGatewayTime, .glGatewayTime, .crcField),
            (.leObjName, .leObjName, .field .leStatus .opt), (.leStatus, .leStatus, .field .leValTime .opt),
            (.leValTime, .leValTime, .field .leUnit .opt), (.leUnit, .leUnit, .field .leScaler .opt),
            (.leScaler, .leScaler, .field .leValue .value), (.leValue, .leValue, .field .leValueSignature .opt)] →
          t = { s.warn .wFieldTag (some field) with seq := next, ret := t.ret }) ∧
        (∀ r, f = .openReqField → s.doc.opened = some r → r.reqField = [] →
          t = { (s.warn .wFieldTag (some .openReqField)).warn .wReqfieldEmpty (some .openReqField) with
            seq := .field .openServerId .ostrLen
            ret := t.ret }) ∧
        (∀ r, f = .openServerId → s.doc.opened = some r → r.serverId = [] →
          t = { (s.warn .wFieldTag (some .openServerId)).warn .wServeridEmpty (some .openServerId) with
            seq := .field .openRefTime .peek
            ret := t.ret }) ∧
        (∀ earlier r, f = .glServerId → s.doc.lists = earlier ++ [r] → r.serverId = [] →
          t = { (s.warn .wFieldTag (some .glServerId)).warn .wServeridEmpty (some .glServerId) with
            seq := .field .glListName .opt
            ret := t.ret }) ∧
        (∀ n, f = .leValueSignature → s.entriesLeft = n + 1 →
          t = { s.warn .wFieldTag (some .leValueSignature) with
            entriesLeft := n
            seq := if n = 0 then .field .glListSignature .opt else .entryHeader
            ret := t.ret }))

/-- R181: the arity check of the three bodies, after LIST_LEN: the right count, another count (consumed), not a list header (not
consumed), and the end of the buffer. -/
def Obligations.ArityChecks : Prop :=
  ∀ (s : State) (f g : Slot) (n : BitVec 4) (code : EventCode), s.cmd = none → s.seq = .field f .listLen →
    (f, g, n, code) ∈ [(Slot.openArity, Slot.openCodepage, (6 : BitVec 4), EventCode.wArityOpen),
      (.closeArity, .closeSignature, 1, .wArityClose), (.glArity, .glClientId, 7, .wArityGetlist)] →
    (s.pos < s.len → s.buf.byte s.pos = tlByte 7 n →
      s.steps 2 = .next { s with
        pos := s.pos + 1
        seq := .field g .opt
        ret := { status := .ok, val := .w8 (n.zeroExtend 8) } }) ∧
    (s.pos < s.len → (s.buf.byte s.pos).toNat / 16 = 7 → s.buf.byte s.pos ≠ tlByte 7 n →
      s.steps 2 = .next { { s with pos := s.pos + 1 }.warn code none with
        seq := .field g .opt
        ret := { status := .ok, val := .w8 ((lo (s.buf.byte s.pos)).zeroExtend 8) } }) ∧
    (s.pos < s.len → (s.buf.byte s.pos).toNat / 16 ≠ 7 →
      step s = .next { s.warn code none with seq := .field g .opt, ret := { status := .tagMismatch, val := .w8 0xFF } }) ∧
    (s.len ≤ s.pos → step s = .next { s.raiseFatal .sizeError with ret := { status := .short, val := .w8 0xFF } })

/-- R182, R183 to R185, R200: an absent optional field is one byte passed and the next field of the layout; no record is written. Behind the
value signature, the last field of an entry, the value list's loop (R185) counts down: another entry, or, after the last, the list
signature. -/
def Obligations.AbsentOptionalFields : Prop :=
  ∀ (s : State) (f : Slot), s.cmd = none → s.seq = .field f .opt → s.pos < s.len → s.buf.byte s.pos = 0x01 →
    (∀ next : Position,
      (f, next) ∈ [(Slot.openCodepage, Position.field .openClientId .opt), (.openClientId, .field .openReqField .ostrLen),
        (.openVersion, .crcField), (.closeSignature, .crcField),
        (.glClientId, .field .glServerId .ostrLen), (.glListName, .field .glSensorTime .opt),
        (.glSensorTime, .field .glValList .listLen), (.glListSignature, .field .glGatewayTime .opt), (.glGatewayTime, .crcField),
        (.leStatus, .field .leValTime .opt), (.leValTime, .field .leUnit .opt), (.leUnit, .field .leScaler .opt),
        (.leScaler, .field .leValue .value)] →
      ∃ r : Ret, r.status = .absent ∧ step s = .next { s with pos := s.pos + 1, seq := next, ret := r }) ∧
    (∀ n, f = .leValueSignature → s.entriesLeft = n + 1 →
      ∃ r : Ret, r.status = .absent ∧
        step s = .next { s with
          pos := s.pos + 1
          entriesLeft := n
          seq := if n = 0 then .field .glListSignature .opt else .entryHeader
          ret := r })

/-- R183, R185, R200: an octet string read for a required field is stored, and an empty request field or server ID draws its warning: from the
field's first operation, OSTR_LEN, in two steps, and from its second, OSTR, in one. -/
def Obligations.RequiredStrings : Prop :=
  ∀ (s : State) (op : Op) (k : Nat) (l : BitVec 4) (payload rest : List Byte), s.cmd = none → (op, k) ∈ [(Op.ostrLen, 2), (.ostr, 1)] →
    payload.length = ostrPayload l → s.window = tlByte 0 l :: payload ++ rest →
    ∃ u : State, u = { s with pos := s.pos + 1 + payload.length, ret := { status := .ok, val := .octets payload } } ∧
      (∀ r, s.seq = .field .openReqField op → s.doc.opened = some r →
        s.steps k = .next { (if payload = [] then u.warn .wReqfieldEmpty (some .openReqField) else u) with
          doc := { s.doc with opened := some { r with reqField := payload } }
          seq := .field .openServerId .ostrLen }) ∧
      (∀ r, s.seq = .field .openServerId op → s.doc.opened = some r →
        s.steps k = .next { (if payload = [] then u.warn .wServeridEmpty (some .openServerId) else u) with
          doc := { s.doc with opened := some { r with serverId := payload } }
          seq := .field .openRefTime .peek }) ∧
      (∀ earlier r, s.seq = .field .glServerId op → s.doc.lists = earlier ++ [r] →
        s.steps k = .next { (if payload = [] then u.warn .wServeridEmpty (some .glServerId) else u) with
          doc := { s.doc with lists := earlier ++ [{ r with serverId := payload }] }
          seq := .field .glListName .opt }) ∧
      (∀ earlier r done e, s.seq = .field .leObjName op → s.doc.lists = earlier ++ [r] → r.entries = done ++ [e] →
        s.steps k = .next { u with
          doc := { s.doc with lists := earlier ++ [{ r with entries := done ++ [{ e with objName := payload }] }] }
          seq := .field .leStatus .opt })

/-- R182, R183 to R185, R200, R201: a field that is present, read from its first operation on, is stored in its own place of the record being
filled and the next field of the layout follows. The steps are those of OPT or the probe and of the readers it leads to. A signature
may be a short or an extended octet string; the value is here an octet string (its numbers: DispatchedNumbersStored). -/
def Obligations.PresentFieldsStored : Prop :=
  ∀ s : State, s.cmd = none →
    (∀ r, s.doc.opened = some r →
      (∀ l p, l ≠ 1 → s.ostrAt l p →
        (s.seq = .field .openCodepage .opt →
          s.steps 3 = .next { s.passed (1 + p.length) (.octets p) with
            doc := { s.doc with opened := some { r with codepage := some p } }
            seq := .field .openClientId .opt }) ∧
        (s.seq = .field .openClientId .opt →
          s.steps 3 = .next { s.passed (1 + p.length) (.octets p) with
            doc := { s.doc with opened := some { r with clientId := some p } }
            seq := .field .openReqField .ostrLen })) ∧
      (∀ time n, s.timeAt time n → s.seq = .field .openRefTime .peek →
        s.steps 3 = .next { s.passed n (.time time) with
          doc := { s.doc with opened := some { r with refTime := some time } }
          seq := .field .openVersion .opt }) ∧
      (∀ v rest, s.window = 0x62 :: v :: rest → s.seq = .field .openVersion .opt →
        s.steps 2 = .next { s.passed 2 (.w8 v) with
          doc := { s.doc with opened := some { r with smlVersion := v } }
          seq := .crcField })) ∧
    (∀ r p n k, s.doc.closed = some r → s.signatureAt p n k → s.seq = .field .closeSignature .opt →
      s.steps k = .next { s.passed n (.octets p) with
        doc := { s.doc with closed := some { r with globalSignature := some p } }
        seq := .crcField }) ∧
    (∀ earlier r, s.doc.lists = earlier ++ [r] →
      (∀ l p, l ≠ 1 → s.ostrAt l p →
        (s.seq = .field .glClientId .opt →
          s.steps 3 = .next { s.passed (1 + p.length) (.octets p) with
            doc := { s.doc with lists := earlier ++ [{ r with clientId := some p }] }
            seq := .field .glServerId .ostrLen }) ∧
        (s.seq = .field .glListName .opt →
          s.steps 3 = .next { s.passed (1 + p.length) (.octets p) with
            doc := { s.doc with lists := earlier ++ [{ r with listName := some p }] }
            seq := .field .glSensorTime .opt })) ∧
      (∀ time n, s.timeAt time n →
        (s.seq = .field .glSensorTime .opt →
          s.steps 2 = .next { s.passed n (.time time) with
            doc := { s.doc with lists := earlier ++ [{ r with actSensorTime := some time }] }
            seq := .field .glValList .listLen }) ∧
        (s.seq = .field .glGatewayTime .opt →
          s.steps 2 = .next { s.passed n (.time time) with
            doc := { s.doc with lists := earlier ++ [{ r with actGatewayTime := some time }] }
            seq := .crcField })) ∧
      (∀ p n k, s.signatureAt p n k → s.seq = .field .glListSignature .opt →
        s.steps k = .next { s.passed n (.octets p) with
          doc := { s.doc with lists := earlier ++ [{ r with listSignature := some p }] }
          seq := .field .glGatewayTime .opt })) ∧
    (∀ earlier r done e, s.doc.lists = earlier ++ [r] → r.entries = done ++ [e] →
      (∀ time n, s.timeAt time n → s.seq = .field .leValTime .opt →
        s.steps 2 = .next { s.passed n (.time time) with
          doc := { s.doc with lists := earlier ++ [{ r with entries := done ++ [{ e with valTime := some time }] }] }
          seq := .field .leUnit .opt }) ∧
      (∀ v rest, s.window = 0x62 :: v :: rest → s.seq = .field .leUnit .opt →
        s.steps 2 = .next { s.passed 2 (.w8 v) with
          doc := { s.doc with lists := earlier ++ [{ r with entries := done ++ [{ e with unit := some v }] }] }
          seq := .field .leScaler .opt }) ∧
      (∀ v rest, s.window = 0x52 :: v :: rest → s.seq = .field .leScaler .opt →
        s.steps 2 = .next { s.passed 2 (.w8 v) with
          doc := { s.doc with lists := earlier ++ [{ r with entries := done ++ [{ e with scaler := v }] }] }
          seq := .field .leValue .value }) ∧
      (∀ l p, s.ostrAt l p → s.seq = .field .leValue .value →
        s.steps 3 = .next { s.passed (1 + p.length) (.octets p) with
          doc := { s.doc with lists := earlier ++ [{ r with entries := done ++ [{ e with value := .str p }] }] }
          seq := .field .leValueSignature .opt }) ∧
      (∀ p n k m, s.signatureAt p n k → s.seq = .field .leValueSignature .opt → s.entriesLeft = m + 1 →
        s.steps k = .next { s.passed n (.octets p) with
          doc := { s.doc with lists := earlier ++ [{ r with entries := done ++ [{ e with valueSignature := some p }] }] }
          entriesLeft := m
          seq := if m = 0 then .field .glListSignature .opt else .entryHeader }))

/-- R183: the reference-time probe. -/
def Obligations.ReferenceTimeProbe : Prop :=
  ∀ s : State, s.cmd = none → s.seq = .field .openRefTime .peek →
    (s.len ≤ s.pos → ∃ r, step s = .next { s.raiseFatal .sizeError with ret := r }) ∧
    (s.pos < s.len → s.buf.byte s.pos = 0x01 →
      ∃ r, step s = .next { s with pos := s.pos + 1, seq := .field .openVersion .opt, ret := r }) ∧
    (s.pos < s.len → s.buf.byte s.pos ≠ 0x01 → (s.buf.byte s.pos).toNat / 16 = 0 →
      ∃ r, s.steps 2 =
        .next { s.warn .wReftimeProbe (some .openRefTime) with seq := .field .openVersion .opt, ret := r }) ∧
    (s.pos < s.len → (s.buf.byte s.pos).toNat / 16 ≠ 0 →
      ∃ r, s.steps 2 = .next { s with seq := .field .openRefTime .time, ret := r })

/-- R185: the value list's count: so many entries, none at count 0, and none, with a warning, where it is no list header. -/
def Obligations.ValueListCount : Prop :=
  ∀ s : State, s.cmd = none → s.seq = .field .glValList .listLen → s.pos < s.len →
    (∀ n : BitVec 4, s.buf.byte s.pos = tlByte 7 n →
      s.steps 2 = .next { s with
        pos := s.pos + 1
        entriesLeft := n.toNat
        seq := if n = 0 then .field .glListSignature .opt else .entryHeader
        ret := { status := .ok, val := .w8 (n.zeroExtend 8) } }) ∧
    ((s.buf.byte s.pos).toNat / 16 ≠ 7 →
      step s = .next { s.warn .wFieldTag (some .glValList) with
        entriesLeft := 0
        seq := .field .glListSignature .opt
        ret := { status := .tagMismatch, val := .w8 0xFF } })

/-- R137 to R139, R200, R201, R147 (ii): a number read through a dispatcher is stored in 64 bits, signed values sign-extended at their own
width and unsigned ones zero-extended. From the field's first operation (VALUE, OPT) in three steps, from the dispatcher in two. -/
def Obligations.DispatchedNumbersStored : Prop :=
  ∀ (s : State) (earlier : List ListResponse) (r : ListResponse) (done : List ListEntry) (e : ListEntry) (w : Nat),
    s.cmd = none → s.doc.lists = earlier ++ [r] → r.entries = done ++ [e] → w ∈ [1, 2, 4, 8] → s.pos + 1 + w ≤ s.len →
    (∀ op k, (op, k) ∈ [(Op.value, 3), (.unsigned, 2)] → s.seq = .field .leValue op → (s.buf.byte s.pos).toNat = 0x61 + w →
      ∃ x : Ret, s.steps k = .next { s with
        pos := s.pos + 1 + w
        doc := { s.doc with lists := earlier ++ [{ r with
          entries := done ++ [{ e with value := .uint (BitVec.ofNat 64 (s.memRead (s.pos + 1) w)) }] }] }
        seq := .field .leValueSignature .opt
        ret := x }) ∧
    (∀ op k, (op, k) ∈ [(Op.value, 3), (.integer, 2)] → s.seq = .field .leValue op → (s.buf.byte s.pos).toNat = 0x51 + w →
      ∃ x : Ret, s.steps k = .next { s with
        pos := s.pos + 1 + w
        doc := { s.doc with lists := earlier ++ [{ r with
          entries := done ++ [{ e with value := .int ((BitVec.ofNat (8 * w) (s.memRead (s.pos + 1) w)).signExtend 64) }] }] }
        seq := .field .leValueSignature .opt
        ret := x }) ∧
    (∀ op k, (op, k) ∈ [(Op.opt, 3), (.status, 2)] → s.seq = .field .leStatus op → (s.buf.byte s.pos).toNat = 0x61 + w →
      ∃ x : Ret, s.steps k = .next { s with
        pos := s.pos + 1 + w
        doc := { s.doc with lists := earlier ++ [{ r with
          entries := done ++ [{ e with status := some (BitVec.ofNat 64 (s.memRead (s.pos + 1) w)) }] }] }
        seq := .field .leValTime .opt
        ret := x })

/-! Host commands. -/

/-- R220: what DECODE writes from each of the three resting states (R314), and what it leaves: LEN, BUF and CRCOP. The last two fields
are the model's own (log entries 5 and 6). -/
def Obligations.DecodeCommand : Prop :=
  ∀ s : State, s.seq = .idle ∨ s.seq = .done ∨ s.seq = .error →
    exec .decode s =
      .next { s with
        doc := { opened := none, lists := [], closed := none }
        ev := []
        flags := { crcErr := false, warn := false, finished := false }
        env := State.reset.env
        result := .ok
        pos := 0
        seq := .seekStart
        entriesLeft := 0
        ret := { status := .ok, val := .nothing } }

/-- R165: the CRC16 command writes CRCOP.out, unswapped whatever CRC_SWAP is, and nothing else; a range outside the buffer is refused. -/
def Obligations.Crc16Command : Prop :=
  ∀ s : State, s.resting = true →
    (s.crcop.start + s.crcop.len ≤ s.len →
      exec .crc16 s = .next { s with crcop := { s.crcop with out := crc16 (s.buf.bytes s.crcop.start s.crcop.len) } }) ∧
    (s.len < s.crcop.start + s.crcop.len → exec .crc16 s = .next s)

/-- R22, R314: a write to CMD is taken while STATE is resting and the value is 01 or 02; every other write changes nothing. The write
leaves CMD either way (log entry 3). -/
def Obligations.CommandAcceptance : Prop :=
  ∀ (s : State) (b : Byte), s.cmd = some b →
    (s.resting = true → b = 0x01 → step s = exec .decode { s with cmd := none }) ∧
    (s.resting = true → b = 0x02 → step s = exec .crc16 { s with cmd := none }) ∧
    (s.resting = true → b ≠ 0x01 → b ≠ 0x02 → step s = .next { s with cmd := none }) ∧
    (s.resting = false → step s = .next { s with cmd := none })

/-! The step. -/

/-- A step runs the decoded instruction. With no command pending, where the bytes at the sequencer's place decode to `i`, the step is
`exec i`; at a field the sequencer then settles what the reader returned (`State.settle`, R180 to R185, R200, R225, R227). A pending
command is decoded from CMD while STATE is resting. That one step runs one row and then settles is the model's granularity (log entry 5);
that CMD holds the command until the step empties it is the model's too (log entry 3). -/
def Obligations.StepRunsDecoded : Prop :=
  ∀ (s : State) (c : Ctx) (i : Instr),
    (s.cmd = none → s.seq.ctx = some c → decode c s.fetchBytes = .ok i →
      ((∀ f op, s.seq ≠ .field f op) → step s = exec i s) ∧
      (∀ f op t, s.seq = .field f op → exec i s = .next t → step s = .next (t.settle f op))) ∧
    (∀ b, s.cmd = some b → s.resting = true → decode .command [b] = .ok i → step s = exec i { s with cmd := none })

/-- Where the bytes at the sequencer's place do not decode, the place's own row runs and does what its rule says of them (R221 to R224,
R226, R232, R234, R235, R200). -/
def Obligations.StepRunsTheCheck : Prop :=
  ∀ (s : State) (c : Ctx) (e : ReadFail) (i : Instr), s.cmd = none → s.seq.ctx = some c → decode c s.fetchBytes = .error e →
    (s.seq, i) ∈ [(Position.seekStart, Instr.start), (.verifyHeader, .ver), (.messageLoop, .msg), (.bodyList, .bodyList),
      (.entryHeader, .entry), (.eom, .eom), (.endEscape, .esc), (.endByte, .endByte)] →
    step s = exec i s

/-- No behaviour of the block is stuck (93_implementation_defined.md section 1): every step answers a next state. -/
def Obligations.StepAlwaysAnswers : Prop := ∀ s : State, ∃ t, step s = .next t

/-- R62, R41, R29, R23, R28: no instruction and no step writes BUF, LEN, the configuration, or CRCOP's operands; CRCOP.out is written by
the CRC16 command alone. That no instruction changes CMD, and that every step leaves it empty, are the model's (log entry 3). -/
def Obligations.HostRegistersKept : Prop :=
  (∀ (i : Instr) (s t : State), exec i s = .next t →
    (∀ a, t.buf.byte a = s.buf.byte a) ∧ t.buf = s.buf ∧ t.len = s.len ∧ t.cfg = s.cfg ∧ t.cmd = s.cmd ∧
    t.crcop.start = s.crcop.start ∧ t.crcop.len = s.crcop.len ∧ (i ≠ .crc16 → t.crcop = s.crcop)) ∧
  (∀ s t : State, step s = .next t →
    (∀ a, t.buf.byte a = s.buf.byte a) ∧ t.buf = s.buf ∧ t.len = s.len ∧ t.cfg = s.cfg ∧ t.cmd = none ∧
    t.crcop.start = s.crcop.start ∧ t.crcop.len = s.crcop.len ∧ (s.cmd ≠ some 0x02 → t.crcop = s.crcop))

/-- Every step keeps the cursor's invariant: inside the buffer while running, behind the message's first byte inside a message (R24,
R163), at a field only the operations of that field. And in a step of the sequencer the cursor never decreases (R24). -/
def Obligations.StepKeepsCursor : Prop :=
  ∀ s t : State, s.CursorInv → step s = .next t →
    t.CursorInv ∧ (s.cmd = none → s.resting = false → s.pos ≤ t.pos ∧ t.pos ≤ t.len)

/-- Every step keeps the log's invariant, the severity of each event (R285), WARN and CRC_ERR (R27); and FINISHED in agreement with
DOC.close and the closing states (R232, R235). -/
def Obligations.StepKeepsFlags : Prop :=
  ∀ s t : State, step s = .next t → (s.LogInv → t.LogInv) ∧ (s.FinishInv → t.FinishInv)

/-- Every step keeps the outcome's invariant: Error exactly with a fatal RESULT and its event, the last and only fatal one (R26, R270,
R290, R291). -/
def Obligations.StepKeepsOutcome : Prop := ∀ s t : State, s.OutcomeInv → step s = .next t → t.OutcomeInv

/-- Every step keeps the bound of 15 entries a GetListResponse (R33, R185). -/
def Obligations.StepKeepsEntryBound : Prop :=
  ∀ s t : State, s.seq.legal = true → s.EntryInv → step s = .next t → t.seq.legal = true ∧ t.EntryInv

/-- R37, R27: but for an accepted DECODE, the event log only grows and the flags are only set. -/
def Obligations.LogOnlyGrows : Prop :=
  ∀ s t : State, step s = .next t → ¬ (s.cmd = some 0x01 ∧ s.resting = true) →
    (∃ new, t.ev = s.ev ++ new) ∧
    (s.flags.crcErr = true → t.flags.crcErr = true) ∧
    (s.flags.warn = true → t.flags.warn = true) ∧
    (s.flags.finished = true → t.flags.finished = true)

/-- R271: nothing else is fatal. A step that enters Error had one of the listed causes, with the code of that cause: the place, the bytes
that failed its check, and, for a governed check, a policy that makes the failure fatal. -/
def Obligations.FatalCauses : Prop :=
  ∀ s t : State, s.cmd = none → s.seq ≠ .error → step s = .next t → t.seq = .error →
    (t.result = .sizeError ∧
      ((s.seq = .seekStart ∧ findPattern (seekPattern s.cfg.startMode) (s.bytesFrom 0) = none) ∨
        (s.seq = .verifyHeader ∧ s.len < s.pos + 8) ∨
        (∃ f op, s.seq = .field f op ∧ decode (.lex op) s.window = .error .short) ∨
        ((s.seq = .bodyList ∨ s.seq = .entryHeader ∨ s.seq = .eom ∨ s.seq = .endByte) ∧ s.len ≤ s.pos) ∨
        (s.seq = .crcField ∧ decode .crcField s.window = .error .short) ∨
        (s.seq = .endEscape ∧ s.len < s.pos + 4))) ∨
    (t.result = .headerMismatch ∧
      ((s.seq = .verifyHeader ∧ s.pos + 8 ≤ s.len ∧
          (s.buf.bytes s.pos 4 ≠ [0x1b, 0x1b, 0x1b, 0x1b] ∨ s.buf.bytes (s.pos + 4) 4 ≠ [0x01, 0x01, 0x01, 0x01])) ∨
        (s.seq = .endEscape ∧ s.pos + 4 ≤ s.len ∧ s.buf.bytes s.pos 4 ≠ [0x1b, 0x1b, 0x1b, 0x1b] ∧
          s.cfg.policy.treatment .endEscape s.env.abortOnError = .fatal) ∨
        (s.seq = .endByte ∧ s.pos < s.len ∧ s.buf.byte s.pos ≠ 0x1a ∧
          s.cfg.policy.treatment .endByte s.env.abortOnError = .fatal))) ∨
    (t.result = .syntaxError ∧
      ((s.seq = .bodyList ∧ s.pos < s.len ∧ s.buf.byte s.pos ≠ 0x72 ∧
          s.cfg.policy.treatment .bodyListArity s.env.abortOnError = .fatal) ∨
        (s.seq = .eom ∧ s.pos < s.len ∧ s.buf.byte s.pos ≠ 0x00 ∧
          s.cfg.policy.treatment .eom s.env.abortOnError = .fatal))) ∨
    (t.result = .unknownMessageType ∧ s.seq = .dispatch ∧
      s.env.msgType ≠ 0x0101 ∧ s.env.msgType ≠ 0x0701 ∧ s.env.msgType ≠ 0x0201)

/-- R61: the block never reads BUF at or beyond LEN. Two states that differ only there step to states that differ only there. -/
def Obligations.NothingReadBeyondLen : Prop :=
  ∀ s s' t t' : State, s.sameBelowLen s' → step s = .next t → step s' = .next t' → t.sameBelowLen t'

/-- R27, R37, R286: no rule reads EV, CRC_ERR, WARN, RESULT or CRCOP.out: they are outputs. -/
def Obligations.OutputsNeverRead : Prop :=
  ∀ s s' t t' : State, s.withoutOutputs = s'.withoutOutputs → step s = .next t → step s' = .next t' →
    t.withoutOutputs = t'.withoutOutputs

/-- R239, R321: every DECODE reaches Done or Error, after a number of steps bounded by LEN alone. The bound's factor is the model's (log
entry 5: how much one step does). -/
def Obligations.DecodeTerminates : Prop :=
  ∀ s : State, s.cmd = some 0x01 → s.resting = true →
    ∃ n t, n ≤ 512 * (s.len + 2) ∧ s.steps n = .next t ∧ t.cmd = none ∧ (t.seq = .done ∨ t.seq = .error)

/-! The host's side. -/

/-- R41, R315, R23, R28, R313: the host's writes and the load of a telegram while STATE is resting. R72, R74: what was written before CMD is
what the command sees, and a command once written is neither changed nor cancelled. The model's own (log entries 3, 4, 7): a CMD write
waits for the next step and until then the block counts as running; a write then, or while STATE is running, and a value that does not
fit the Cursor's width, are refused by name; a CMD write that is refused changes nothing. -/
def Obligations.HostWrites : Prop :=
  ∀ (s : State) (a n : Nat) (b : Byte) (bs : List Byte),
    (s.resting = true → s.cmd = none →
      (Cfg.fits s.cfg a = true →
        (∃ t, hostWriteBuf a b s = .next t ∧ t = { s with buf := t.buf } ∧ hostReadBuf a { t with len := a + 1 } = .ok b ∧
          ∀ x, x ≠ a → t.buf.byte x = s.buf.byte x)) ∧
      (Cfg.fits s.cfg n = true →
        hostWriteLen n s = .next { s with len := n } ∧
        hostWriteCrcStart n s = .next { s with crcop := { s.crcop with start := n } } ∧
        hostWriteCrcLen n s = .next { s with crcop := { s.crcop with len := n } }) ∧
      (Cfg.fits s.cfg n = false →
        hostWriteBuf n b s = .refused .exceedsCursorWidth ∧ hostWriteLen n s = .refused .exceedsCursorWidth ∧
        hostWriteCrcStart n s = .refused .exceedsCursorWidth ∧ hostWriteCrcLen n s = .refused .exceedsCursorWidth) ∧
      (b = 0x01 ∨ b = 0x02 → hostWriteCmd b s = .next { s with cmd := some b }) ∧
      (Cfg.fits s.cfg bs.length = true →
        ∃ t, s.loadTelegram bs = .next t ∧ t = { s with buf := t.buf, len := bs.length, cmd := some 0x01 } ∧
          t.buf.bytes 0 bs.length = bs ∧ (∀ x, bs.length ≤ x → t.buf.byte x = s.buf.byte x) ∧
          step t = exec .decode { t with cmd := none }) ∧
      (Cfg.fits s.cfg bs.length = false → s.loadTelegram bs = .refused .exceedsCursorWidth)) ∧
    (s.resting = false ∨ s.cmd ≠ none →
      hostWriteBuf a b s = .refused .hostWriteWhileRunning ∧ hostWriteLen n s = .refused .hostWriteWhileRunning ∧
      hostWriteCrcStart n s = .refused .hostWriteWhileRunning ∧ hostWriteCrcLen n s = .refused .hostWriteWhileRunning ∧
      s.loadTelegram bs = .refused .hostWriteWhileRunning) ∧
    (s.resting = false ∨ s.cmd ≠ none ∨ (b ≠ 0x01 ∧ b ≠ 0x02) → hostWriteCmd b s = .next s)

/-- R260: the first entry, lists and entries in the order appended, whose name is the code; none if there is none. A name that is not six
bytes long never matches. -/
def Obligations.QueryFirstMatch : Prop :=
  ∀ (d : Document) (code : Vector Byte 6),
    (∀ e, getElementByObis d code = some e ↔
      ∃ lists r later before after, d.lists = lists ++ r :: later ∧ r.entries = before ++ e :: after ∧ e.objName = code.toList ∧
        (∀ q ∈ lists, ∀ x ∈ q.entries, x.objName ≠ code.toList) ∧ ∀ x ∈ before, x.objName ≠ code.toList) ∧
    (getElementByObis d code = none ↔ ∀ r ∈ d.lists, ∀ x ∈ r.entries, x.objName ≠ code.toList) ∧
    (∀ e, getElementByObis d code = some e → e.objName.length = 6)

/-- R261, R202: the unit table. R262: the effective value. -/
def Obligations.UnitsAndEffectiveValue : Prop :=
  (∀ u : BitVec 8, getUnitAsString u = if u.toNat = 27 then "W" else if u.toNat = 30 then "Wh" else "") ∧
  (∀ e : ListEntry, (e.unit = none → e.unitString = "") ∧ ∀ u, e.unit = some u → e.unitString = getUnitAsString u) ∧
  (∀ (e : ListEntry) (v : BitVec 64) (bs : List Byte),
    (e.value = .int v → effective e = some ((v.toInt : Rat) * (10 : Rat) ^ e.scaler.toInt)) ∧
    (e.value = .uint v → effective e = some ((v.toNat : Rat) * (10 : Rat) ^ e.scaler.toInt)) ∧
    (e.value = .str bs → effective e = none) ∧
    (e.value = .unset → effective e = none))
end

