-- ==== Sys2Proof/Laws/Memory.lean ====
section
/-! SUPPORT. BUF: the canonical form is kept by every operation, read after write, and the bytes from the cursor to LEN. -/

namespace Sys2Proof.Machine

open Sys2Proof

/-! Reading what was written. -/

theorem Memory.get?_write_same (m : Memory) (a : Nat) (v : Byte) : (m.write a v).get? a = some v := by
  fun_induction Memory.write m a v with
  | case1 => simp [Memory.get?]
  | case2 => simp [Memory.get?]
  | case3 => simp [Memory.get?]
  | case4 k b rest a v h1 h2 ih => simp [Memory.get?, h1, h2, ih]

theorem Memory.get?_write_other (m : Memory) {a x : Nat} (v : Byte) (h : x ≠ a) : (m.write a v).get? x = m.get? x := by
  fun_induction Memory.write m a v with
  | case1 => simp [Memory.get?, h]
  | case2 k b rest a v h1 =>
    simp only [Memory.get?, h, if_false]
    split <;> grind
  | case3 k b rest v h1 => simp [Memory.get?, h]
  | case4 k b rest a v h1 h2 ih => simp [Memory.get?, ih h]

theorem Memory.byte_write_same (m : Memory) (a : Nat) (v : Byte) : (m.write a v).byte a = v := by
  simp [Memory.byte, Memory.get?_write_same]

theorem Memory.byte_write_other (m : Memory) {a x : Nat} (v : Byte) (h : x ≠ a) : (m.write a v).byte x = m.byte x := by
  simp [Memory.byte, Memory.get?_write_other m v h]

/-! The canonical form. -/

/-- An offset of the written memory is the one written or was there before. -/
theorem Memory.mem_write {m : Memory} {a : Nat} {v : Byte} {c : Host.Cell} (h : c ∈ m.write a v) : c.1 = a ∨ c ∈ m := by
  fun_induction Memory.write m a v <;> grind

theorem Memory.write_wf {m : Memory} (h : m.wf) (a : Nat) (v : Byte) : (m.write a v).wf := by
  fun_induction Memory.write m a v with
  | case1 => simp [Memory.wf]
  | case2 k b rest a v h1 =>
    simp only [Memory.wf, List.pairwise_cons] at h ⊢
    exact ⟨by grind, h⟩
  | case3 k b rest v h1 =>
    simp only [Memory.wf, List.pairwise_cons] at h ⊢
    exact h
  | case4 k b rest a v h1 h2 ih =>
    simp only [Memory.wf, List.pairwise_cons] at h ⊢
    exact ⟨fun c hc => by rcases Memory.mem_write hc with e | e <;> grind, ih h.2⟩

theorem Memory.writeAll_wf {m : Memory} (h : m.wf) (a : Nat) (bs : List Byte) : (m.writeAll a bs).wf := by
  induction bs generalizing m a with
  | nil => exact h
  | cons b bs ih => exact ih (Memory.write_wf h a b) (a + 1)

/-- Nothing is listed at an offset below all that are. -/
theorem Memory.get?_below {m : Memory} {a : Nat} (h : ∀ c ∈ m, a < c.1) : m.get? a = none := by
  cases m with
  | nil => rfl
  | cons c r =>
    have := h c List.mem_cons_self
    simp [Memory.get?, this, Nat.ne_of_lt this]

/-- Memories in the canonical form that list the same byte at every offset are equal data. -/
theorem Memory.ext_wf {m m' : Memory} (h : m.wf) (h' : m'.wf) (e : ∀ a, m.get? a = m'.get? a) : m = m' := by
  induction m generalizing m' with
  | nil =>
    cases m' with
    | nil => rfl
    | cons c r => have := e c.1; simp [Memory.get?] at this
  | cons c r ih =>
    cases m' with
    | nil => have := e c.1; simp [Memory.get?] at this
    | cons c' r' =>
      obtain ⟨k, b⟩ := c
      obtain ⟨k', b'⟩ := c'
      simp only [Memory.wf, List.pairwise_cons] at h h'
      have hk : k = k' := by
        have e1 := e k
        have e2 := e k'
        simp only [Memory.get?] at e1 e2
        grind
      subst hk
      have hb := e k
      simp only [Memory.get?, if_true, Option.some.injEq] at hb
      subst hb
      rw [ih h.2 h'.2 fun a => ?_]
      have ea := e a
      simp only [Memory.get?] at ea
      by_cases ha : a = k
      · subst ha
        rw [Memory.get?_below h.1, Memory.get?_below h'.1]
      · by_cases hl : a < k
        · rw [Memory.get?_below fun c hc => Nat.lt_trans hl (h.1 c hc), Memory.get?_below fun c hc => Nat.lt_trans hl (h'.1 c hc)]
        · simpa [ha, hl] using ea

theorem State.reset_wf : State.reset.buf.wf := List.Pairwise.nil

/-! A run of bytes. -/

theorem Memory.byte_writeAll_below (m : Memory) {a x : Nat} (bs : List Byte) (h : x < a) : (m.writeAll a bs).byte x = m.byte x := by
  induction bs generalizing m a with
  | nil => rfl
  | cons b bs ih => rw [Memory.writeAll, ih _ (by omega), Memory.byte_write_other _ _ (by omega)]

theorem Memory.byte_writeAll_above (m : Memory) {a x : Nat} (bs : List Byte) (h : a + bs.length ≤ x) :
    (m.writeAll a bs).byte x = m.byte x := by
  induction bs generalizing m a with
  | nil => rfl
  | cons b bs ih =>
    rw [List.length_cons] at h
    rw [Memory.writeAll, ih _ (by omega), Memory.byte_write_other _ _ (by omega)]

theorem Memory.bytes_writeAll (m : Memory) (a : Nat) (bs : List Byte) : (m.writeAll a bs).bytes a bs.length = bs := by
  induction bs generalizing m a with
  | nil => rfl
  | cons b bs ih =>
    simp only [Memory.writeAll, List.length_cons, Memory.bytes]
    rw [Memory.byte_writeAll_below _ _ (by omega), Memory.byte_write_same, ih]

@[simp] theorem Memory.bytes_length (m : Memory) (a n : Nat) : (m.bytes a n).length = n := by
  induction n generalizing a with
  | zero => rfl
  | succ n ih => simp [Memory.bytes, ih]

theorem Memory.bytes_add (m : Memory) (a n k : Nat) : m.bytes a (n + k) = m.bytes a n ++ m.bytes (a + n) k := by
  induction n generalizing a with
  | zero => simp [Memory.bytes]
  | succ n ih =>
    rw [show n + 1 + k = (n + k) + 1 by omega]
    simp [Memory.bytes, ih, Nat.add_assoc, Nat.add_comm 1 n]

/-- The first `n` of the bytes from `a` to LEN are the `n` bytes from `a`, where they are inside the buffer. -/
theorem State.bytesFrom_take {s : State} {a n : Nat} (h : a + n ≤ s.len) : (s.bytesFrom a).take n = s.buf.bytes a n := by
  have : s.len - a = n + (s.len - a - n) := by omega
  rw [State.bytesFrom, this, Memory.bytes_add, List.take_left' (Memory.bytes_length ..)]

theorem State.bytesFrom_drop {s : State} {a n : Nat} (h : a + n ≤ s.len) : (s.bytesFrom a).drop n = s.bytesFrom (a + n) := by
  have : s.len - a = n + (s.len - (a + n)) := by omega
  rw [State.bytesFrom, this, Memory.bytes_add, List.drop_left' (Memory.bytes_length ..), State.bytesFrom]

theorem State.bytesFrom_length (s : State) (a : Nat) : (s.bytesFrom a).length = s.len - a := Memory.bytes_length ..

theorem State.window_length (s : State) : s.window.length = s.len - s.pos := s.bytesFrom_length s.pos

/-- At the end of the buffer there is nothing to read. -/
theorem State.window_nil {s : State} (h : s.len ≤ s.pos) : s.window = [] :=
  List.eq_nil_of_length_eq_zero (by rw [s.window_length]; omega)

theorem State.bytesFrom_cons {s : State} {a : Nat} (h : a < s.len) : s.bytesFrom a = s.buf.byte a :: s.bytesFrom (a + 1) := by
  rw [State.bytesFrom, show s.len - a = (s.len - (a + 1)) + 1 by omega]
  rfl

/-- Inside the buffer the window is the byte at the cursor and what follows. -/
theorem State.window_cons {s : State} (h : s.pos < s.len) : s.window = s.buf.byte s.pos :: s.bytesFrom (s.pos + 1) :=
  State.bytesFrom_cons h

end Sys2Proof.Machine
end

