-- ==== Sys2Proof/Laws/HostPort.lean ====
section
/-! SUPPORT. What the host's acts can do, said once: a register write, a CMD write, and that BUF keeps its canonical form. -/

namespace Sys2Proof.Machine

open Sys2Proof

theorem State.ready_iff (s : State) : s.ready = true ↔ s.resting = true ∧ s.cmd = none := by
  simp [State.ready]

/-- A register write answers next only on a ready block and for a value that fits; the state is then the one written. -/
theorem State.hostWrite_next {s t u : State} {n : Nat} :
    s.hostWrite n t = .next u ↔ s.ready = true ∧ Cfg.fits s.cfg n = true ∧ u = t := by
  unfold State.hostWrite
  split
  · next hr =>
    split
    · next hf => exact ⟨fun h => ⟨hr, hf, (Host.Outcome.next.inj h).symm⟩, fun h => congrArg _ h.2.2.symm⟩
    · next hf => exact ⟨(nomatch ·), fun h => absurd h.2.1 hf⟩
  · next hr => exact ⟨(nomatch ·), fun h => absurd h.1 hr⟩

/-- A CMD write holds a command for the next step, on a ready block, or changes nothing. -/
theorem hostWriteCmd_cases (b : Byte) (s : State) :
    (s.ready = true ∧ (b = 0x01 ∨ b = 0x02) ∧ hostWriteCmd b s = .next { s with cmd := some b }) ∨
      (¬ (s.ready = true ∧ (b = 0x01 ∨ b = 0x02)) ∧ hostWriteCmd b s = .next s) := by
  unfold hostWriteCmd
  by_cases hr : s.ready = true
  · by_cases h1 : b = 0x01
    · subst h1; exact .inl ⟨hr, .inl rfl, by rw [if_pos hr]; rfl⟩
    · by_cases h2 : b = 0x02
      · subst h2; exact .inl ⟨hr, .inr rfl, by rw [if_pos hr]; rfl⟩
      · refine .inr ⟨fun h => h.2.elim h1 h2, ?_⟩
        have hd : decode .command [b] = .error .tagMismatch := by
          show (if b = 0x01 then _ else if b = 0x02 then _ else _) = _
          rw [if_neg h1, if_neg h2]
        rw [if_pos hr, hd]
  · exact .inr ⟨fun h => hr h.1, if_neg hr⟩

theorem hostWriteBuf_wf {s t : State} {a : Nat} {b : Byte} (h : s.buf.wf) (ht : hostWriteBuf a b s = .next t) : t.buf.wf := by
  rw [(State.hostWrite_next.1 ht).2.2]
  exact Memory.write_wf h a b

theorem State.loadTelegram_wf {s t : State} {bs : List Byte} (h : s.buf.wf) (ht : s.loadTelegram bs = .next t) : t.buf.wf := by
  rw [(State.hostWrite_next.1 ht).2.2]
  exact Memory.writeAll_wf h 0 bs

end Sys2Proof.Machine
end

