-- ==== Sys2Proof/Laws/Operands.lean ====
section
/-! SUPPORT. Nibbles, byte order, and what each reader answers, once. -/

namespace Sys2Proof

/-! Nibbles (R80). -/

@[simp] theorem hi_tlByte (h l : BitVec 4) : hi (tlByte h l) = h := by
  revert h l; decide

@[simp] theorem lo_tlByte (h l : BitVec 4) : lo (tlByte h l) = l := by
  revert h l; decide

@[simp] theorem tlByte_hi_lo (b : Byte) : tlByte (hi b) (lo b) = b := by
  revert b; decide

/-! Byte order (R64). -/

@[simp] theorem toBigEndian_length (w n : Nat) : (toBigEndian w n).length = w := by
  induction w with
  | zero => rfl
  | succ w ih => simp [toBigEndian, ih]

theorem ofBigEndian_append (xs ys : List Byte) : ofBigEndian (xs ++ ys) = ofBigEndian xs * 256 ^ ys.length + ofBigEndian ys := by
  have step : ∀ (ys : List Byte) (a : Nat),
      ys.foldl (fun acc b => acc * 256 + b.toNat) a = a * 256 ^ ys.length + ys.foldl (fun acc b => acc * 256 + b.toNat) 0 := by
    intro ys
    induction ys with
    | nil => simp
    | cons y ys ih =>
      intro a
      rw [List.foldl_cons, ih, List.foldl_cons, ih (0 * 256 + y.toNat), List.length_cons, Nat.pow_succ]
      ring
  rw [ofBigEndian, List.foldl_append, step, ofBigEndian, ofBigEndian]

theorem ofBigEndian_cons (b : Byte) (bs : List Byte) : ofBigEndian (b :: bs) = b.toNat * 256 ^ bs.length + ofBigEndian bs := by
  have := ofBigEndian_append [b] bs
  simpa [ofBigEndian] using this

theorem ofBigEndian_lt (bs : List Byte) : ofBigEndian bs < 256 ^ bs.length := by
  induction bs with
  | nil => simp [ofBigEndian]
  | cons b bs ih =>
    rw [ofBigEndian_cons, List.length_cons, Nat.pow_succ]
    have : b.toNat < 256 := b.isLt
    nlinarith [Nat.pos_of_ne_zero (pow_ne_zero bs.length (show (256 : Nat) ≠ 0 by decide))]

/-- The big-endian bytes of a number are read back as the number, modulo the width. -/
theorem ofBigEndian_toBigEndian (w n : Nat) : ofBigEndian (toBigEndian w n) = n % 256 ^ w := by
  induction w with
  | zero => simp [toBigEndian, ofBigEndian, Nat.mod_one]
  | succ w ih =>
    rw [toBigEndian, ofBigEndian_cons, ih, toBigEndian_length, BitVec.toNat_ofNat, show (2 : Nat) ^ 8 = 256 from rfl,
      Nat.mod_pow_succ (b := 256), Nat.add_comm, Nat.mul_comm]

/-- Bytes are the big-endian bytes of the number they are read as. -/
theorem toBigEndian_ofBigEndian (bs : List Byte) : toBigEndian bs.length (ofBigEndian bs) = bs := by
  induction bs with
  | nil => rfl
  | cons b bs ih =>
    have hb := b.isLt
    have hlt := ofBigEndian_lt bs
    have hpos : 0 < 256 ^ bs.length := Nat.pow_pos (by decide)
    have key : ∀ (w n m : Nat), n % 256 ^ w = m % 256 ^ w → toBigEndian w n = toBigEndian w m := by
      intro w
      induction w with
      | zero => intros; rfl
      | succ w ih =>
        intro n m h
        have h1 : n % 256 ^ w = m % 256 ^ w := by
          have := congrArg (· % 256 ^ w) h
          simpa [Nat.pow_succ, Nat.mod_mul_right_mod] using this
        have h2 : n / 256 ^ w % 256 = m / 256 ^ w % 256 := by
          have := congrArg (· / 256 ^ w) h
          simpa [Nat.pow_succ, Nat.mod_mul_right_div_self] using this
        rw [toBigEndian, toBigEndian, ih n m h1]
        congr 1
        apply BitVec.eq_of_toNat_eq
        simpa using h2
    rw [List.length_cons, toBigEndian, ofBigEndian_cons]
    congr 1
    · apply BitVec.eq_of_toNat_eq
      rw [BitVec.toNat_ofNat, Nat.mul_comm, Nat.mul_add_div hpos, Nat.div_eq_of_lt hlt]
      omega
    · rw [key bs.length _ (ofBigEndian bs) (by rw [Nat.mul_comm, Nat.mul_add_mod]), ih]

/-! The readers: what an `ok` answer says, and nothing else is `ok`. -/

theorem takeBytes_ok {n : Nat} {bs v r : List Byte} : takeBytes n bs = .ok (v, r) ↔ n ≤ bs.length ∧ v = bs.take n ∧ r = bs.drop n := by
  unfold takeBytes
  split
  · simp; omega
  · simp [eq_comm]; omega

/-- `RD_NUM` answers a value exactly at its own tag with its width of bytes behind it. -/
theorem rdNum_ok {tag : Byte} {w : Nat} {bs r : List Byte} {v : Nat} :
    rdNum tag w bs = .ok (v, r) ↔ ∃ rest, bs = tag :: rest ∧ w ≤ rest.length ∧ v = ofBigEndian (rest.take w) ∧ r = rest.drop w := by
  cases bs with
  | nil => simp [rdNum]
  | cons b rest =>
    by_cases hb : b = tag
    · subst hb
      by_cases hl : rest.length < w
      · simp only [rdNum, hl, if_true]
        grind
      · have : w ≤ rest.length := by omega
        simp [rdNum, hl, this, eq_comm]
    · simp [rdNum, hb]

theorem rdOstr_ok {bs r payload : List Byte} {l : BitVec 4} :
    rdOstr bs = .ok ((l, payload), r) ↔
      ∃ rest, bs = tlByte 0 l :: rest ∧ ostrPayload l ≤ rest.length ∧ payload = rest.take (ostrPayload l) ∧ r = rest.drop (ostrPayload l) := by
  cases bs with
  | nil => simp [rdOstr]
  | cons b rest =>
    by_cases hb : hi b = 0
    · have hb' : b = tlByte 0 (lo b) := by rw [← hb, tlByte_hi_lo]
      by_cases hl : rest.length < ostrPayload (lo b)
      · simp only [rdOstr, hb, hl, if_true]
        constructor
        · intro h; cases h
        · rintro ⟨rest', h, h2, -, -⟩
          injection h with h3 h4
          subst h4
          rw [h3, lo_tlByte] at hl
          omega
      · simp only [rdOstr, hb, hl, if_true, if_false]
        constructor
        · intro h
          injection h with h
          simp only [Prod.mk.injEq] at h
          obtain ⟨⟨rfl, rfl⟩, rfl⟩ := h
          exact ⟨rest, by rw [← hb'], by omega, rfl, rfl⟩
        · rintro ⟨rest', h, h2, rfl, rfl⟩
          injection h with h3 h4
          subst h4
          rw [h3, lo_tlByte]
    · simp only [rdOstr, hb, if_false]
      constructor
      · intro h; cases h
      · rintro ⟨rest', h, -⟩
        injection h with h3 h4
        exact absurd (by rw [h3, hi_tlByte]) hb

theorem rdList_ok {bs r : List Byte} {n : BitVec 4} : rdList bs = .ok (n, r) ↔ bs = tlByte 7 n :: r := by
  cases bs with
  | nil => simp [rdList]
  | cons b rest =>
    by_cases hb : hi b = 7
    · have hb' : b = tlByte 7 (lo b) := by rw [← hb, tlByte_hi_lo]
      simp only [rdList, hb, if_true]
      constructor
      · intro h
        injection h with h
        simp only [Prod.mk.injEq] at h
        obtain ⟨rfl, rfl⟩ := h
        rw [← hb']
      · intro h
        injection h with h3 h4
        rw [h3, lo_tlByte, h4]
    · simp only [rdList, hb, if_false]
      constructor
      · intro h; cases h
      · intro h
        injection h with h3 h4
        exact absurd (by rw [h3, hi_tlByte]) hb

/-- A length chain is its `0x8n` bytes, its terminal byte, and what follows. -/
theorem lengthChain_some {bs r : List Byte} {ns : List (BitVec 4)} {t : Byte} :
    lengthChain bs = some (ns, t, r) ↔ hi t ≠ 8 ∧ bs = ns.map (tlByte 8) ++ t :: r := by
  induction bs generalizing ns with
  | nil => simp [lengthChain]
  | cons b rest ih =>
    by_cases hb : hi b = 8
    · have hb' : b = tlByte 8 (lo b) := by rw [← hb, tlByte_hi_lo]
      simp only [lengthChain, hb, if_true, Option.map_eq_some_iff]
      constructor
      · rintro ⟨⟨ns', t', r'⟩, h, he⟩
        simp only [Prod.mk.injEq] at he
        obtain ⟨rfl, rfl, rfl⟩ := he
        obtain ⟨h1, h2⟩ := ih.1 h
        exact ⟨h1, by rw [List.map_cons, ← hb', h2]; rfl⟩
      · rintro ⟨h1, h2⟩
        cases ns with
        | nil =>
          simp only [List.map_nil, List.nil_append, List.cons.injEq] at h2
          exact absurd (h2.1 ▸ hb) h1
        | cons n ns =>
          simp only [List.map_cons, List.cons_append, List.cons.injEq] at h2
          exact ⟨(ns, t, r), ih.2 ⟨h1, h2.2⟩, by rw [h2.1, lo_tlByte]⟩
    · simp only [lengthChain, hb, if_false]
      constructor
      · intro h
        simp only [Option.some.injEq, Prod.mk.injEq] at h
        obtain ⟨rfl, rfl, rfl⟩ := h
        exact ⟨hb, rfl⟩
      · rintro ⟨h1, h2⟩
        cases ns with
        | nil =>
          simp only [List.map_nil, List.nil_append, List.cons.injEq] at h2
          simp [h2.1, h2.2]
        | cons n ns =>
          simp only [List.map_cons, List.cons_append, List.cons.injEq] at h2
          exact absurd (by rw [h2.1, hi_tlByte]) hb

end Sys2Proof
end

