-- ==== Sys2Proof/Laws/State.lean ====
section
/-! SUPPORT. What each register write leaves in each field of State, one lemma per field and write, so that no proof unfolds a
record update. -/

namespace Sys2Proof.Machine

open Sys2Proof

variable (s : State)

@[simp] theorem State.goto_cfg (p : Position) : (s.goto p).cfg = s.cfg := rfl
@[simp] theorem State.goto_buf (p : Position) : (s.goto p).buf = s.buf := rfl
@[simp] theorem State.goto_len (p : Position) : (s.goto p).len = s.len := rfl
@[simp] theorem State.goto_pos (p : Position) : (s.goto p).pos = s.pos := rfl
@[simp] theorem State.goto_cmd (p : Position) : (s.goto p).cmd = s.cmd := rfl
@[simp] theorem State.goto_seq (p : Position) : (s.goto p).seq = p := rfl
@[simp] theorem State.goto_result (p : Position) : (s.goto p).result = s.result := rfl
@[simp] theorem State.goto_flags (p : Position) : (s.goto p).flags = s.flags := rfl
@[simp] theorem State.goto_crcop (p : Position) : (s.goto p).crcop = s.crcop := rfl
@[simp] theorem State.goto_env (p : Position) : (s.goto p).env = s.env := rfl
@[simp] theorem State.goto_doc (p : Position) : (s.goto p).doc = s.doc := rfl
@[simp] theorem State.goto_ev (p : Position) : (s.goto p).ev = s.ev := rfl
@[simp] theorem State.goto_entriesLeft (p : Position) : (s.goto p).entriesLeft = s.entriesLeft := rfl
@[simp] theorem State.goto_ret (p : Position) : (s.goto p).ret = s.ret := rfl

@[simp] theorem State.advance_cfg (n : Nat) : (s.advance n).cfg = s.cfg := rfl
@[simp] theorem State.advance_buf (n : Nat) : (s.advance n).buf = s.buf := rfl
@[simp] theorem State.advance_len (n : Nat) : (s.advance n).len = s.len := rfl
@[simp] theorem State.advance_pos (n : Nat) : (s.advance n).pos = s.pos + n := rfl
@[simp] theorem State.advance_cmd (n : Nat) : (s.advance n).cmd = s.cmd := rfl
@[simp] theorem State.advance_seq (n : Nat) : (s.advance n).seq = s.seq := rfl
@[simp] theorem State.advance_result (n : Nat) : (s.advance n).result = s.result := rfl
@[simp] theorem State.advance_flags (n : Nat) : (s.advance n).flags = s.flags := rfl
@[simp] theorem State.advance_crcop (n : Nat) : (s.advance n).crcop = s.crcop := rfl
@[simp] theorem State.advance_env (n : Nat) : (s.advance n).env = s.env := rfl
@[simp] theorem State.advance_doc (n : Nat) : (s.advance n).doc = s.doc := rfl
@[simp] theorem State.advance_ev (n : Nat) : (s.advance n).ev = s.ev := rfl
@[simp] theorem State.advance_entriesLeft (n : Nat) : (s.advance n).entriesLeft = s.entriesLeft := rfl
@[simp] theorem State.advance_ret (n : Nat) : (s.advance n).ret = s.ret := rfl

@[simp] theorem State.return_cfg (st : Status) (v : Val) : (s.return st v).cfg = s.cfg := rfl
@[simp] theorem State.return_buf (st : Status) (v : Val) : (s.return st v).buf = s.buf := rfl
@[simp] theorem State.return_len (st : Status) (v : Val) : (s.return st v).len = s.len := rfl
@[simp] theorem State.return_pos (st : Status) (v : Val) : (s.return st v).pos = s.pos := rfl
@[simp] theorem State.return_cmd (st : Status) (v : Val) : (s.return st v).cmd = s.cmd := rfl
@[simp] theorem State.return_seq (st : Status) (v : Val) : (s.return st v).seq = s.seq := rfl
@[simp] theorem State.return_result (st : Status) (v : Val) : (s.return st v).result = s.result := rfl
@[simp] theorem State.return_flags (st : Status) (v : Val) : (s.return st v).flags = s.flags := rfl
@[simp] theorem State.return_crcop (st : Status) (v : Val) : (s.return st v).crcop = s.crcop := rfl
@[simp] theorem State.return_env (st : Status) (v : Val) : (s.return st v).env = s.env := rfl
@[simp] theorem State.return_doc (st : Status) (v : Val) : (s.return st v).doc = s.doc := rfl
@[simp] theorem State.return_ev (st : Status) (v : Val) : (s.return st v).ev = s.ev := rfl
@[simp] theorem State.return_entriesLeft (st : Status) (v : Val) : (s.return st v).entriesLeft = s.entriesLeft := rfl
@[simp] theorem State.return_ret (st : Status) (v : Val) : (s.return st v).ret = { status := st, val := v } := rfl

@[simp] theorem State.setWarn_cfg : s.setWarn.cfg = s.cfg := rfl
@[simp] theorem State.setWarn_buf : s.setWarn.buf = s.buf := rfl
@[simp] theorem State.setWarn_len : s.setWarn.len = s.len := rfl
@[simp] theorem State.setWarn_pos : s.setWarn.pos = s.pos := rfl
@[simp] theorem State.setWarn_cmd : s.setWarn.cmd = s.cmd := rfl
@[simp] theorem State.setWarn_seq : s.setWarn.seq = s.seq := rfl
@[simp] theorem State.setWarn_result : s.setWarn.result = s.result := rfl
@[simp] theorem State.setWarn_flags : s.setWarn.flags = { s.flags with warn := true } := rfl
@[simp] theorem State.setWarn_crcop : s.setWarn.crcop = s.crcop := rfl
@[simp] theorem State.setWarn_env : s.setWarn.env = s.env := rfl
@[simp] theorem State.setWarn_doc : s.setWarn.doc = s.doc := rfl
@[simp] theorem State.setWarn_ev : s.setWarn.ev = s.ev := rfl
@[simp] theorem State.setWarn_entriesLeft : s.setWarn.entriesLeft = s.entriesLeft := rfl
@[simp] theorem State.setWarn_ret : s.setWarn.ret = s.ret := rfl

@[simp] theorem State.setCrcErr_cfg : s.setCrcErr.cfg = s.cfg := rfl
@[simp] theorem State.setCrcErr_buf : s.setCrcErr.buf = s.buf := rfl
@[simp] theorem State.setCrcErr_len : s.setCrcErr.len = s.len := rfl
@[simp] theorem State.setCrcErr_pos : s.setCrcErr.pos = s.pos := rfl
@[simp] theorem State.setCrcErr_cmd : s.setCrcErr.cmd = s.cmd := rfl
@[simp] theorem State.setCrcErr_seq : s.setCrcErr.seq = s.seq := rfl
@[simp] theorem State.setCrcErr_result : s.setCrcErr.result = s.result := rfl
@[simp] theorem State.setCrcErr_flags : s.setCrcErr.flags = { s.flags with crcErr := true } := rfl
@[simp] theorem State.setCrcErr_crcop : s.setCrcErr.crcop = s.crcop := rfl
@[simp] theorem State.setCrcErr_env : s.setCrcErr.env = s.env := rfl
@[simp] theorem State.setCrcErr_doc : s.setCrcErr.doc = s.doc := rfl
@[simp] theorem State.setCrcErr_ev : s.setCrcErr.ev = s.ev := rfl
@[simp] theorem State.setCrcErr_entriesLeft : s.setCrcErr.entriesLeft = s.entriesLeft := rfl
@[simp] theorem State.setCrcErr_ret : s.setCrcErr.ret = s.ret := rfl

@[simp] theorem State.setFinished_cfg : s.setFinished.cfg = s.cfg := rfl
@[simp] theorem State.setFinished_buf : s.setFinished.buf = s.buf := rfl
@[simp] theorem State.setFinished_len : s.setFinished.len = s.len := rfl
@[simp] theorem State.setFinished_pos : s.setFinished.pos = s.pos := rfl
@[simp] theorem State.setFinished_cmd : s.setFinished.cmd = s.cmd := rfl
@[simp] theorem State.setFinished_seq : s.setFinished.seq = s.seq := rfl
@[simp] theorem State.setFinished_result : s.setFinished.result = s.result := rfl
@[simp] theorem State.setFinished_flags : s.setFinished.flags = { s.flags with finished := true } := rfl
@[simp] theorem State.setFinished_crcop : s.setFinished.crcop = s.crcop := rfl
@[simp] theorem State.setFinished_env : s.setFinished.env = s.env := rfl
@[simp] theorem State.setFinished_doc : s.setFinished.doc = s.doc := rfl
@[simp] theorem State.setFinished_ev : s.setFinished.ev = s.ev := rfl
@[simp] theorem State.setFinished_entriesLeft : s.setFinished.entriesLeft = s.entriesLeft := rfl
@[simp] theorem State.setFinished_ret : s.setFinished.ret = s.ret := rfl

@[simp] theorem State.setEnv_cfg (e : Env) : (s.setEnv e).cfg = s.cfg := rfl
@[simp] theorem State.setEnv_buf (e : Env) : (s.setEnv e).buf = s.buf := rfl
@[simp] theorem State.setEnv_len (e : Env) : (s.setEnv e).len = s.len := rfl
@[simp] theorem State.setEnv_pos (e : Env) : (s.setEnv e).pos = s.pos := rfl
@[simp] theorem State.setEnv_cmd (e : Env) : (s.setEnv e).cmd = s.cmd := rfl
@[simp] theorem State.setEnv_seq (e : Env) : (s.setEnv e).seq = s.seq := rfl
@[simp] theorem State.setEnv_result (e : Env) : (s.setEnv e).result = s.result := rfl
@[simp] theorem State.setEnv_flags (e : Env) : (s.setEnv e).flags = s.flags := rfl
@[simp] theorem State.setEnv_crcop (e : Env) : (s.setEnv e).crcop = s.crcop := rfl
@[simp] theorem State.setEnv_env (e : Env) : (s.setEnv e).env = e := rfl
@[simp] theorem State.setEnv_doc (e : Env) : (s.setEnv e).doc = s.doc := rfl
@[simp] theorem State.setEnv_ev (e : Env) : (s.setEnv e).ev = s.ev := rfl
@[simp] theorem State.setEnv_entriesLeft (e : Env) : (s.setEnv e).entriesLeft = s.entriesLeft := rfl
@[simp] theorem State.setEnv_ret (e : Env) : (s.setEnv e).ret = s.ret := rfl

@[simp] theorem State.setDoc_cfg (d : Document) : (s.setDoc d).cfg = s.cfg := rfl
@[simp] theorem State.setDoc_buf (d : Document) : (s.setDoc d).buf = s.buf := rfl
@[simp] theorem State.setDoc_len (d : Document) : (s.setDoc d).len = s.len := rfl
@[simp] theorem State.setDoc_pos (d : Document) : (s.setDoc d).pos = s.pos := rfl
@[simp] theorem State.setDoc_cmd (d : Document) : (s.setDoc d).cmd = s.cmd := rfl
@[simp] theorem State.setDoc_seq (d : Document) : (s.setDoc d).seq = s.seq := rfl
@[simp] theorem State.setDoc_result (d : Document) : (s.setDoc d).result = s.result := rfl
@[simp] theorem State.setDoc_flags (d : Document) : (s.setDoc d).flags = s.flags := rfl
@[simp] theorem State.setDoc_crcop (d : Document) : (s.setDoc d).crcop = s.crcop := rfl
@[simp] theorem State.setDoc_env (d : Document) : (s.setDoc d).env = s.env := rfl
@[simp] theorem State.setDoc_doc (d : Document) : (s.setDoc d).doc = d := rfl
@[simp] theorem State.setDoc_ev (d : Document) : (s.setDoc d).ev = s.ev := rfl
@[simp] theorem State.setDoc_entriesLeft (d : Document) : (s.setDoc d).entriesLeft = s.entriesLeft := rfl
@[simp] theorem State.setDoc_ret (d : Document) : (s.setDoc d).ret = s.ret := rfl

@[simp] theorem State.setEntriesLeft_cfg (n : Nat) : (s.setEntriesLeft n).cfg = s.cfg := rfl
@[simp] theorem State.setEntriesLeft_buf (n : Nat) : (s.setEntriesLeft n).buf = s.buf := rfl
@[simp] theorem State.setEntriesLeft_len (n : Nat) : (s.setEntriesLeft n).len = s.len := rfl
@[simp] theorem State.setEntriesLeft_pos (n : Nat) : (s.setEntriesLeft n).pos = s.pos := rfl
@[simp] theorem State.setEntriesLeft_cmd (n : Nat) : (s.setEntriesLeft n).cmd = s.cmd := rfl
@[simp] theorem State.setEntriesLeft_seq (n : Nat) : (s.setEntriesLeft n).seq = s.seq := rfl
@[simp] theorem State.setEntriesLeft_result (n : Nat) : (s.setEntriesLeft n).result = s.result := rfl
@[simp] theorem State.setEntriesLeft_flags (n : Nat) : (s.setEntriesLeft n).flags = s.flags := rfl
@[simp] theorem State.setEntriesLeft_crcop (n : Nat) : (s.setEntriesLeft n).crcop = s.crcop := rfl
@[simp] theorem State.setEntriesLeft_env (n : Nat) : (s.setEntriesLeft n).env = s.env := rfl
@[simp] theorem State.setEntriesLeft_doc (n : Nat) : (s.setEntriesLeft n).doc = s.doc := rfl
@[simp] theorem State.setEntriesLeft_ev (n : Nat) : (s.setEntriesLeft n).ev = s.ev := rfl
@[simp] theorem State.setEntriesLeft_entriesLeft (n : Nat) : (s.setEntriesLeft n).entriesLeft = n := rfl
@[simp] theorem State.setEntriesLeft_ret (n : Nat) : (s.setEntriesLeft n).ret = s.ret := rfl

@[simp] theorem State.emit_cfg (sev : EventSeverity) (c : EventCode) (f : Option FieldId) : (s.emit sev c f).cfg = s.cfg := rfl
@[simp] theorem State.emit_buf (sev : EventSeverity) (c : EventCode) (f : Option FieldId) : (s.emit sev c f).buf = s.buf := rfl
@[simp] theorem State.emit_len (sev : EventSeverity) (c : EventCode) (f : Option FieldId) : (s.emit sev c f).len = s.len := rfl
@[simp] theorem State.emit_pos (sev : EventSeverity) (c : EventCode) (f : Option FieldId) : (s.emit sev c f).pos = s.pos := rfl
@[simp] theorem State.emit_cmd (sev : EventSeverity) (c : EventCode) (f : Option FieldId) : (s.emit sev c f).cmd = s.cmd := rfl
@[simp] theorem State.emit_seq (sev : EventSeverity) (c : EventCode) (f : Option FieldId) : (s.emit sev c f).seq = s.seq := rfl
@[simp] theorem State.emit_result (sev : EventSeverity) (c : EventCode) (f : Option FieldId) :
    (s.emit sev c f).result = s.result :=
  rfl
@[simp] theorem State.emit_flags (sev : EventSeverity) (c : EventCode) (f : Option FieldId) :
    (s.emit sev c f).flags = s.flags :=
  rfl
@[simp] theorem State.emit_crcop (sev : EventSeverity) (c : EventCode) (f : Option FieldId) :
    (s.emit sev c f).crcop = s.crcop :=
  rfl
@[simp] theorem State.emit_env (sev : EventSeverity) (c : EventCode) (f : Option FieldId) : (s.emit sev c f).env = s.env := rfl
@[simp] theorem State.emit_doc (sev : EventSeverity) (c : EventCode) (f : Option FieldId) : (s.emit sev c f).doc = s.doc := rfl
@[simp] theorem State.emit_ev (sev : EventSeverity) (c : EventCode) (f : Option FieldId) :
    (s.emit sev c f).ev = s.ev ++ [{ severity := sev, code := c, field := f, loc := s.pos }] :=
  rfl
@[simp] theorem State.emit_entriesLeft (sev : EventSeverity) (c : EventCode) (f : Option FieldId) :
    (s.emit sev c f).entriesLeft = s.entriesLeft :=
  rfl
@[simp] theorem State.emit_ret (sev : EventSeverity) (c : EventCode) (f : Option FieldId) : (s.emit sev c f).ret = s.ret := rfl

@[simp] theorem State.warn_cfg (c : EventCode) (f : Option FieldId) : (s.warn c f).cfg = s.cfg := rfl
@[simp] theorem State.warn_buf (c : EventCode) (f : Option FieldId) : (s.warn c f).buf = s.buf := rfl
@[simp] theorem State.warn_len (c : EventCode) (f : Option FieldId) : (s.warn c f).len = s.len := rfl
@[simp] theorem State.warn_pos (c : EventCode) (f : Option FieldId) : (s.warn c f).pos = s.pos := rfl
@[simp] theorem State.warn_cmd (c : EventCode) (f : Option FieldId) : (s.warn c f).cmd = s.cmd := rfl
@[simp] theorem State.warn_seq (c : EventCode) (f : Option FieldId) : (s.warn c f).seq = s.seq := rfl
@[simp] theorem State.warn_result (c : EventCode) (f : Option FieldId) : (s.warn c f).result = s.result := rfl
@[simp] theorem State.warn_flags (c : EventCode) (f : Option FieldId) : (s.warn c f).flags = { s.flags with warn := true } := rfl
@[simp] theorem State.warn_crcop (c : EventCode) (f : Option FieldId) : (s.warn c f).crcop = s.crcop := rfl
@[simp] theorem State.warn_env (c : EventCode) (f : Option FieldId) : (s.warn c f).env = s.env := rfl
@[simp] theorem State.warn_doc (c : EventCode) (f : Option FieldId) : (s.warn c f).doc = s.doc := rfl
@[simp] theorem State.warn_ev (c : EventCode) (f : Option FieldId) :
    (s.warn c f).ev = s.ev ++ [{ severity := .warning, code := c, field := f, loc := s.pos }] :=
  rfl
@[simp] theorem State.warn_entriesLeft (c : EventCode) (f : Option FieldId) : (s.warn c f).entriesLeft = s.entriesLeft := rfl
@[simp] theorem State.warn_ret (c : EventCode) (f : Option FieldId) : (s.warn c f).ret = s.ret := rfl

@[simp] theorem State.raiseFatal_cfg (c : FatalCode) : (s.raiseFatal c).cfg = s.cfg := rfl
@[simp] theorem State.raiseFatal_buf (c : FatalCode) : (s.raiseFatal c).buf = s.buf := rfl
@[simp] theorem State.raiseFatal_len (c : FatalCode) : (s.raiseFatal c).len = s.len := rfl
@[simp] theorem State.raiseFatal_pos (c : FatalCode) : (s.raiseFatal c).pos = s.pos := rfl
@[simp] theorem State.raiseFatal_cmd (c : FatalCode) : (s.raiseFatal c).cmd = s.cmd := rfl
@[simp] theorem State.raiseFatal_seq (c : FatalCode) : (s.raiseFatal c).seq = .error := rfl
@[simp] theorem State.raiseFatal_result (c : FatalCode) : (s.raiseFatal c).result = c.result := rfl
@[simp] theorem State.raiseFatal_flags (c : FatalCode) : (s.raiseFatal c).flags = s.flags := rfl
@[simp] theorem State.raiseFatal_crcop (c : FatalCode) : (s.raiseFatal c).crcop = s.crcop := rfl
@[simp] theorem State.raiseFatal_env (c : FatalCode) : (s.raiseFatal c).env = s.env := rfl
@[simp] theorem State.raiseFatal_doc (c : FatalCode) : (s.raiseFatal c).doc = s.doc := rfl
@[simp] theorem State.raiseFatal_ev (c : FatalCode) :
    (s.raiseFatal c).ev = s.ev ++ [{ severity := .error, code := c.event, field := none, loc := s.pos }] :=
  rfl
@[simp] theorem State.raiseFatal_entriesLeft (c : FatalCode) : (s.raiseFatal c).entriesLeft = s.entriesLeft := rfl
@[simp] theorem State.raiseFatal_ret (c : FatalCode) : (s.raiseFatal c).ret = s.ret := rfl

@[simp] theorem State.clearCmd_cfg : s.clearCmd.cfg = s.cfg := rfl
@[simp] theorem State.clearCmd_buf : s.clearCmd.buf = s.buf := rfl
@[simp] theorem State.clearCmd_len : s.clearCmd.len = s.len := rfl
@[simp] theorem State.clearCmd_pos : s.clearCmd.pos = s.pos := rfl
@[simp] theorem State.clearCmd_cmd : s.clearCmd.cmd = none := rfl
@[simp] theorem State.clearCmd_seq : s.clearCmd.seq = s.seq := rfl
@[simp] theorem State.clearCmd_result : s.clearCmd.result = s.result := rfl
@[simp] theorem State.clearCmd_flags : s.clearCmd.flags = s.flags := rfl
@[simp] theorem State.clearCmd_crcop : s.clearCmd.crcop = s.crcop := rfl
@[simp] theorem State.clearCmd_env : s.clearCmd.env = s.env := rfl
@[simp] theorem State.clearCmd_doc : s.clearCmd.doc = s.doc := rfl
@[simp] theorem State.clearCmd_ev : s.clearCmd.ev = s.ev := rfl
@[simp] theorem State.clearCmd_entriesLeft : s.clearCmd.entriesLeft = s.entriesLeft := rfl
@[simp] theorem State.clearCmd_ret : s.clearCmd.ret = s.ret := rfl

@[simp] theorem State.enter_cfg (f : Slot) : (s.enter f).cfg = s.cfg := rfl
@[simp] theorem State.enter_buf (f : Slot) : (s.enter f).buf = s.buf := rfl
@[simp] theorem State.enter_len (f : Slot) : (s.enter f).len = s.len := rfl
@[simp] theorem State.enter_pos (f : Slot) : (s.enter f).pos = s.pos := rfl
@[simp] theorem State.enter_cmd (f : Slot) : (s.enter f).cmd = s.cmd := rfl
@[simp] theorem State.enter_seq (f : Slot) : (s.enter f).seq = .field f f.start := rfl
@[simp] theorem State.enter_result (f : Slot) : (s.enter f).result = s.result := rfl
@[simp] theorem State.enter_flags (f : Slot) : (s.enter f).flags = s.flags := rfl
@[simp] theorem State.enter_crcop (f : Slot) : (s.enter f).crcop = s.crcop := rfl
@[simp] theorem State.enter_env (f : Slot) : (s.enter f).env = s.env := rfl
@[simp] theorem State.enter_doc (f : Slot) : (s.enter f).doc = s.doc := rfl
@[simp] theorem State.enter_ev (f : Slot) : (s.enter f).ev = s.ev := rfl
@[simp] theorem State.enter_entriesLeft (f : Slot) : (s.enter f).entriesLeft = s.entriesLeft := rfl
@[simp] theorem State.enter_ret (f : Slot) : (s.enter f).ret = s.ret := rfl

@[simp] theorem State.updateOpen_cfg (g : OpenResponse → OpenResponse) : (s.updateOpen g).cfg = s.cfg := rfl
@[simp] theorem State.updateOpen_buf (g : OpenResponse → OpenResponse) : (s.updateOpen g).buf = s.buf := rfl
@[simp] theorem State.updateOpen_len (g : OpenResponse → OpenResponse) : (s.updateOpen g).len = s.len := rfl
@[simp] theorem State.updateOpen_pos (g : OpenResponse → OpenResponse) : (s.updateOpen g).pos = s.pos := rfl
@[simp] theorem State.updateOpen_cmd (g : OpenResponse → OpenResponse) : (s.updateOpen g).cmd = s.cmd := rfl
@[simp] theorem State.updateOpen_seq (g : OpenResponse → OpenResponse) : (s.updateOpen g).seq = s.seq := rfl
@[simp] theorem State.updateOpen_result (g : OpenResponse → OpenResponse) : (s.updateOpen g).result = s.result := rfl
@[simp] theorem State.updateOpen_flags (g : OpenResponse → OpenResponse) : (s.updateOpen g).flags = s.flags := rfl
@[simp] theorem State.updateOpen_crcop (g : OpenResponse → OpenResponse) : (s.updateOpen g).crcop = s.crcop := rfl
@[simp] theorem State.updateOpen_env (g : OpenResponse → OpenResponse) : (s.updateOpen g).env = s.env := rfl
@[simp] theorem State.updateOpen_doc (g : OpenResponse → OpenResponse) :
    (s.updateOpen g).doc = { s.doc with opened := s.doc.opened.map g } :=
  rfl
@[simp] theorem State.updateOpen_ev (g : OpenResponse → OpenResponse) : (s.updateOpen g).ev = s.ev := rfl
@[simp] theorem State.updateOpen_entriesLeft (g : OpenResponse → OpenResponse) :
    (s.updateOpen g).entriesLeft = s.entriesLeft :=
  rfl
@[simp] theorem State.updateOpen_ret (g : OpenResponse → OpenResponse) : (s.updateOpen g).ret = s.ret := rfl

@[simp] theorem State.updateList_cfg (g : ListResponse → ListResponse) : (s.updateList g).cfg = s.cfg := rfl
@[simp] theorem State.updateList_buf (g : ListResponse → ListResponse) : (s.updateList g).buf = s.buf := rfl
@[simp] theorem State.updateList_len (g : ListResponse → ListResponse) : (s.updateList g).len = s.len := rfl
@[simp] theorem State.updateList_pos (g : ListResponse → ListResponse) : (s.updateList g).pos = s.pos := rfl
@[simp] theorem State.updateList_cmd (g : ListResponse → ListResponse) : (s.updateList g).cmd = s.cmd := rfl
@[simp] theorem State.updateList_seq (g : ListResponse → ListResponse) : (s.updateList g).seq = s.seq := rfl
@[simp] theorem State.updateList_result (g : ListResponse → ListResponse) : (s.updateList g).result = s.result := rfl
@[simp] theorem State.updateList_flags (g : ListResponse → ListResponse) : (s.updateList g).flags = s.flags := rfl
@[simp] theorem State.updateList_crcop (g : ListResponse → ListResponse) : (s.updateList g).crcop = s.crcop := rfl
@[simp] theorem State.updateList_env (g : ListResponse → ListResponse) : (s.updateList g).env = s.env := rfl
@[simp] theorem State.updateList_doc (g : ListResponse → ListResponse) :
    (s.updateList g).doc = { s.doc with lists := mapLast g s.doc.lists } :=
  rfl
@[simp] theorem State.updateList_ev (g : ListResponse → ListResponse) : (s.updateList g).ev = s.ev := rfl
@[simp] theorem State.updateList_entriesLeft (g : ListResponse → ListResponse) :
    (s.updateList g).entriesLeft = s.entriesLeft :=
  rfl
@[simp] theorem State.updateList_ret (g : ListResponse → ListResponse) : (s.updateList g).ret = s.ret := rfl

@[simp] theorem State.updateEntry_cfg (g : ListEntry → ListEntry) : (s.updateEntry g).cfg = s.cfg := rfl
@[simp] theorem State.updateEntry_buf (g : ListEntry → ListEntry) : (s.updateEntry g).buf = s.buf := rfl
@[simp] theorem State.updateEntry_len (g : ListEntry → ListEntry) : (s.updateEntry g).len = s.len := rfl
@[simp] theorem State.updateEntry_pos (g : ListEntry → ListEntry) : (s.updateEntry g).pos = s.pos := rfl
@[simp] theorem State.updateEntry_cmd (g : ListEntry → ListEntry) : (s.updateEntry g).cmd = s.cmd := rfl
@[simp] theorem State.updateEntry_seq (g : ListEntry → ListEntry) : (s.updateEntry g).seq = s.seq := rfl
@[simp] theorem State.updateEntry_result (g : ListEntry → ListEntry) : (s.updateEntry g).result = s.result := rfl
@[simp] theorem State.updateEntry_flags (g : ListEntry → ListEntry) : (s.updateEntry g).flags = s.flags := rfl
@[simp] theorem State.updateEntry_crcop (g : ListEntry → ListEntry) : (s.updateEntry g).crcop = s.crcop := rfl
@[simp] theorem State.updateEntry_env (g : ListEntry → ListEntry) : (s.updateEntry g).env = s.env := rfl
@[simp] theorem State.updateEntry_doc (g : ListEntry → ListEntry) :
    (s.updateEntry g).doc = { s.doc with lists := mapLast (fun r => { r with entries := mapLast g r.entries }) s.doc.lists } :=
  rfl
@[simp] theorem State.updateEntry_ev (g : ListEntry → ListEntry) : (s.updateEntry g).ev = s.ev := rfl
@[simp] theorem State.updateEntry_entriesLeft (g : ListEntry → ListEntry) : (s.updateEntry g).entriesLeft = s.entriesLeft := rfl
@[simp] theorem State.updateEntry_ret (g : ListEntry → ListEntry) : (s.updateEntry g).ret = s.ret := rfl

@[simp] theorem State.updateClose_cfg (g : CloseResponse → CloseResponse) : (s.updateClose g).cfg = s.cfg := rfl
@[simp] theorem State.updateClose_buf (g : CloseResponse → CloseResponse) : (s.updateClose g).buf = s.buf := rfl
@[simp] theorem State.updateClose_len (g : CloseResponse → CloseResponse) : (s.updateClose g).len = s.len := rfl
@[simp] theorem State.updateClose_pos (g : CloseResponse → CloseResponse) : (s.updateClose g).pos = s.pos := rfl
@[simp] theorem State.updateClose_cmd (g : CloseResponse → CloseResponse) : (s.updateClose g).cmd = s.cmd := rfl
@[simp] theorem State.updateClose_seq (g : CloseResponse → CloseResponse) : (s.updateClose g).seq = s.seq := rfl
@[simp] theorem State.updateClose_result (g : CloseResponse → CloseResponse) : (s.updateClose g).result = s.result := rfl
@[simp] theorem State.updateClose_flags (g : CloseResponse → CloseResponse) : (s.updateClose g).flags = s.flags := rfl
@[simp] theorem State.updateClose_crcop (g : CloseResponse → CloseResponse) : (s.updateClose g).crcop = s.crcop := rfl
@[simp] theorem State.updateClose_env (g : CloseResponse → CloseResponse) : (s.updateClose g).env = s.env := rfl
@[simp] theorem State.updateClose_doc (g : CloseResponse → CloseResponse) :
    (s.updateClose g).doc = { s.doc with closed := s.doc.closed.map g } :=
  rfl
@[simp] theorem State.updateClose_ev (g : CloseResponse → CloseResponse) : (s.updateClose g).ev = s.ev := rfl
@[simp] theorem State.updateClose_entriesLeft (g : CloseResponse → CloseResponse) :
    (s.updateClose g).entriesLeft = s.entriesLeft :=
  rfl
@[simp] theorem State.updateClose_ret (g : CloseResponse → CloseResponse) : (s.updateClose g).ret = s.ret := rfl

end Sys2Proof.Machine
end

