-- ==== Sys2Proof/Laws/Ops.lean ====
section
/-! SUPPORT. What each shared operation can do, said once: accepting a primitive, a governed check, a fatal error, the CRC comparison,
the search for a pattern, writes to the last record, and the frame of `settle`. -/

namespace Sys2Proof.Machine

open Sys2Proof

/-! The lexer's shared part. -/

theorem State.accept_inside {s : State} {n : Nat} (h : s.pos + n ≤ s.len) (v w : Val) :
    s.accept n v w = { s with pos := s.pos + n, ret := { status := .ok, val := v } } := by
  simp [State.accept, h, State.advance, State.return]

theorem State.accept_outside {s : State} {n : Nat} (h : ¬ s.pos + n ≤ s.len) (v w : Val) :
    s.accept n v w = { s with ret := { status := .short, val := w } } := by
  simp [State.accept, h, State.return]

/-! Warnings, governed checks and the fatal error. -/

theorem State.warn_eq (s : State) (c : EventCode) (f : Option FieldId) :
    s.warn c f = { s with
      ev := s.ev ++ [{ severity := .warning, code := c, field := f, loc := s.pos }]
      flags := { s.flags with warn := true } } := rfl

theorem State.raiseFatal_eq (s : State) (c : FatalCode) :
    s.raiseFatal c = { s with result := c.result, ev := s.ev ++ [c.logged s.pos], seq := .error } := rfl

/-- A governed check that failed is the fatal error or the warning, by POLICY at the message's abort-on-error. -/
theorem State.governed_cases (s : State) (k : Check) (c : FatalCode) (w : EventCode) (next : State → State) :
    (s.cfg.policy.treatment k s.env.abortOnError = .fatal ∧ s.governed k c w next = s.raiseFatal c) ∨
    (s.cfg.policy.treatment k s.env.abortOnError = .warn ∧ s.governed k c w next = next (s.warn w none)) := by
  unfold State.governed
  split
  · exact .inl ⟨‹_›, rfl⟩
  · exact .inr ⟨‹_›, rfl⟩

/-- The comparison of R164 changes CRC_ERR and the log, on a mismatch only. -/
theorem State.compareCrc_cases (s : State) (readOk : Bool) :
    (readOk = true ∧ s.env.crcField = expectedCrc s.cfg.crcSwap s.env.crcComputed ∧ s.compareCrc readOk = s) ∨
    (¬ (readOk = true ∧ s.env.crcField = expectedCrc s.cfg.crcSwap s.env.crcComputed) ∧
      s.compareCrc readOk = { s with
        flags := { s.flags with crcErr := true }
        ev := s.ev ++ [{ severity := .error, code := .eCrcMismatch, field := some .crcField, loc := s.pos }] }) := by
  unfold State.compareCrc
  split
  · next h =>
    simp only [Bool.and_eq_true, beq_iff_eq] at h
    exact .inl ⟨h.1, h.2, rfl⟩
  · next h =>
    simp only [Bool.and_eq_true, beq_iff_eq] at h
    exact .inr ⟨h, rfl⟩

/-! The search for a pattern (R221, R222). -/

/-- A found place is the first at which the bytes begin with the pattern. -/
theorem findPattern_some {pat bs : List Byte} {k : Nat} (hp : pat ≠ []) :
    findPattern pat bs = some k ↔
      (bs.drop k).take pat.length = pat ∧ ∀ j, j < k → (bs.drop j).take pat.length ≠ pat := by
  induction bs generalizing k with
  | nil =>
    simp only [findPattern, List.isEmpty_iff, hp, if_false, List.drop_nil, List.take_nil]
    constructor
    · intro h; cases h
    · intro h; exact absurd h.1.symm hp
  | cons b bs ih =>
    unfold findPattern
    split
    · next h =>
      constructor
      · intro hk
        cases hk
        exact ⟨h, fun j hj => absurd hj (Nat.not_lt_zero j)⟩
      · rintro ⟨-, h2⟩
        cases k with
        | zero => rfl
        | succ k => exact absurd h (h2 0 (Nat.succ_pos k))
    · next h =>
      cases k with
      | zero =>
        simp only [Option.map_eq_some_iff, Nat.add_eq_zero_iff, List.drop_zero]
        constructor
        · rintro ⟨_, _, _, h1⟩; cases h1
        · intro h1; exact absurd h1.1 h
      | succ k =>
        simp only [Option.map_eq_some_iff, Nat.add_right_cancel_iff, exists_eq_right, ih, List.drop_succ_cons]
        constructor
        · rintro ⟨h1, h2⟩
          refine ⟨h1, fun j hj => ?_⟩
          cases j with
          | zero => exact h
          | succ j => exact h2 j (by omega)
        · rintro ⟨h1, h2⟩
          exact ⟨h1, fun j hj => h2 (j + 1) (by omega)⟩

/-- No place is found exactly where the bytes begin with the pattern nowhere. -/
theorem findPattern_none {pat bs : List Byte} (hp : pat ≠ []) :
    findPattern pat bs = none ↔ ∀ k, (bs.drop k).take pat.length ≠ pat := by
  constructor
  · intro h k hk
    have : ∃ k, (bs.drop k).take pat.length = pat := ⟨k, hk⟩
    classical
    have hf := (findPattern_some (bs := bs) hp).2 ⟨Nat.find_spec this, fun j hj => Nat.find_min this hj⟩
    rw [h] at hf
    cases hf
  · intro h
    cases hk : findPattern pat bs with
    | none => rfl
    | some k => exact absurd ((findPattern_some hp).1 hk).1 (h k)

/-! Writes to the last record. -/

@[simp] theorem mapLast_length {α : Type} (f : α → α) (l : List α) : (mapLast f l).length = l.length := by
  fun_induction mapLast f l <;> simp_all

theorem mapLast_append_singleton {α : Type} (f : α → α) (l : List α) (x : α) : mapLast f (l ++ [x]) = l ++ [f x] := by
  induction l with
  | nil => rfl
  | cons a l ih =>
    cases h : l ++ [x] with
    | nil => simp at h
    | cons b r => rw [List.cons_append, h, mapLast, ← h, ih]; rfl

@[simp] theorem mapLast_getLast? {α : Type} (f : α → α) (l : List α) : (mapLast f l).getLast? = l.getLast?.map f := by
  fun_induction mapLast f l <;> simp_all [List.getLast?_cons_cons]
  next x y rest ih =>
    cases h : mapLast f (y :: rest) with
    | nil => have := congrArg List.length h; simp at this
    | cons a r => rw [List.getLast?_cons_cons, ← h, ih]

end Sys2Proof.Machine
end

