-- ==== Sys2Proof/Laws/PerInstr.lean ====
section
/-! SUPPORT. Per instruction: a well-formed instruction is as long as R111 says, one lemma for each row of the opcode table. -/

namespace Sys2Proof.Laws.EncodedLength

open Sys2Proof

/-- The encoding of a well-formed instruction has the row's number of bytes (R111), which is not zero. -/
def Statement (i : Instr) : Prop := i.WellFormed → (encode i).length = i.size ∧ 0 < i.size

theorem eom : Statement .eom := fun _ => ⟨rfl, by decide⟩

theorem absent : Statement .absent := fun _ => ⟨rfl, by decide⟩

theorem ostr (l : BitVec 4) (payload : List Byte) : Statement (.ostr l payload) := by
  intro h
  have h : payload.length = ostrPayload l := h
  simp only [encode, Instr.size, List.length_cons, h, ostrPayload]
  omega

theorem xostr (ns : List (BitVec 4)) (t : Byte) (payload : List Byte) : Statement (.xostr ns t payload) := by
  rintro ⟨-, -, h, hp⟩
  simp only [encode, Instr.size, List.length_append, List.length_map, List.length_cons, hp]
  simp only [chainLength] at h ⊢
  omega

theorem u8 (v : BitVec 8) : Statement (.u8 v) := fun _ => ⟨by simp [encode, Instr.size], by simp [Instr.size]⟩

theorem u16 (v : BitVec 16) : Statement (.u16 v) := fun _ => ⟨by simp [encode, Instr.size], by simp [Instr.size]⟩

theorem u32 (v : BitVec 32) : Statement (.u32 v) := fun _ => ⟨by simp [encode, Instr.size], by simp [Instr.size]⟩

theorem u64 (v : BitVec 64) : Statement (.u64 v) := fun _ => ⟨by simp [encode, Instr.size], by simp [Instr.size]⟩

theorem i8 (v : BitVec 8) : Statement (.i8 v) := fun _ => ⟨by simp [encode, Instr.size], by simp [Instr.size]⟩

theorem i16 (v : BitVec 16) : Statement (.i16 v) := fun _ => ⟨by simp [encode, Instr.size], by simp [Instr.size]⟩

theorem i32 (v : BitVec 32) : Statement (.i32 v) := fun _ => ⟨by simp [encode, Instr.size], by simp [Instr.size]⟩

theorem i64 (v : BitVec 64) : Statement (.i64 v) := fun _ => ⟨by simp [encode, Instr.size], by simp [Instr.size]⟩

theorem list (count : BitVec 4) : Statement (.list count) := fun _ => ⟨rfl, by simp [Instr.size]⟩

theorem timeSec (v : BitVec 32) : Statement (.timeSec v) := fun _ => ⟨by simp [encode, Instr.size], by simp [Instr.size]⟩

theorem timeTs (v : BitVec 32) : Statement (.timeTs v) := fun _ => ⟨by simp [encode, Instr.size], by simp [Instr.size]⟩

theorem timeLocal : Statement .timeLocal := fun _ => ⟨rfl, by decide⟩

theorem esc : Statement .esc := fun _ => ⟨rfl, by decide⟩

theorem endByte : Statement .endByte := fun _ => ⟨rfl, by decide⟩

theorem start : Statement .start := fun _ => ⟨rfl, by decide⟩

theorem ver : Statement .ver := fun _ => ⟨rfl, by decide⟩

theorem msg : Statement .msg := fun _ => ⟨rfl, by decide⟩

theorem bodyList : Statement .bodyList := fun _ => ⟨rfl, by decide⟩

theorem openRes : Statement .openRes := fun _ => ⟨rfl, by decide⟩

theorem closeRes : Statement .closeRes := fun _ => ⟨rfl, by decide⟩

theorem getlistRes : Statement .getlistRes := fun _ => ⟨rfl, by decide⟩

theorem unknownType (t : BitVec 16) : Statement (.unknownType t) := fun _ => ⟨by simp [encode, Instr.size], by simp [Instr.size]⟩

theorem crc (c : BitVec 16) : Statement (.crc c) := fun _ => ⟨by simp [encode, Instr.size], by simp [Instr.size]⟩

theorem entry : Statement .entry := fun _ => ⟨rfl, by decide⟩

theorem value (b : Byte) : Statement (.value b) := fun _ => ⟨rfl, by simp [Instr.size]⟩

theorem rdOstrAny (b : Byte) : Statement (.rdOstrAny b) := fun _ => ⟨rfl, by simp [Instr.size]⟩

theorem rdUnsigned (w : BitVec 4) : Statement (.rdUnsigned w) := fun _ => ⟨rfl, by simp [Instr.size]⟩

theorem rdInteger (w : BitVec 4) : Statement (.rdInteger w) := fun _ => ⟨rfl, by simp [Instr.size]⟩

theorem rdStatus (w : BitVec 4) : Statement (.rdStatus w) := fun _ => ⟨rfl, by simp [Instr.size]⟩

theorem isOstr (b : Byte) : Statement (.isOstr b) := fun _ => ⟨rfl, by simp [Instr.size]⟩

theorem ostrLen (b : Byte) : Statement (.ostrLen b) := fun _ => ⟨rfl, by simp [Instr.size]⟩

theorem listLen (b : Byte) : Statement (.listLen b) := fun _ => ⟨rfl, by simp [Instr.size]⟩

theorem peek (b : Byte) : Statement (.peek b) := fun _ => ⟨rfl, by simp [Instr.size]⟩

theorem opt (b : Byte) : Statement (.opt b) := fun _ => ⟨rfl, by simp [Instr.size]⟩

theorem decode : Statement .decode := fun _ => ⟨rfl, by decide⟩

theorem crc16 : Statement .crc16 := fun _ => ⟨rfl, by decide⟩

end Sys2Proof.Laws.EncodedLength
end

