-- ==== Sys2Proof/Laws/Sequencer.lean ====
section
/-! SUPPORT. The frame of the sequencer's work at a field: what the host owns (configuration, BUF, LEN, CMD, CRCOP) never changes, and
the cursor moves only past an absent reference time. -/

namespace Sys2Proof.Machine

open Sys2Proof

/-- `t` has what the host owns, and the cursor, as `s` has them. -/
structure State.Keeps (s t : State) : Prop where
  cfg : t.cfg = s.cfg
  buf : t.buf = s.buf
  len : t.len = s.len
  cmd : t.cmd = s.cmd
  crcop : t.crcop = s.crcop
  pos : t.pos = s.pos

theorem State.Keeps.rfl {s : State} : s.Keeps s := ⟨Eq.refl _, Eq.refl _, Eq.refl _, Eq.refl _, Eq.refl _, Eq.refl _⟩

theorem State.Keeps.trans {s t u : State} (h : s.Keeps t) (k : t.Keeps u) : s.Keeps u :=
  ⟨k.cfg.trans h.cfg, k.buf.trans h.buf, k.len.trans h.len, k.cmd.trans h.cmd, k.crcop.trans h.crcop, k.pos.trans h.pos⟩

theorem State.keeps_warnEmpty (s : State) (bs : List Byte) (c : EventCode) (f : FieldId) : s.Keeps (s.warnEmpty bs c f) := by
  unfold State.warnEmpty
  split
  · constructor <;> simp
  · exact .rfl

theorem State.keeps_nextEntry (s : State) : s.Keeps s.nextEntry := by
  unfold State.nextEntry
  split <;> constructor <;> simp

theorem State.keeps_enter (s : State) (f : Slot) : s.Keeps (s.enter f) := by constructor <;> simp

theorem State.keeps_nextField (s : State) (f : Slot) : s.Keeps (s.nextField f) := by
  cases f <;> simp only [State.nextField] <;>
    first
    | exact s.keeps_enter _
    | exact (s.keeps_warnEmpty _ _ _).trans (State.keeps_enter _ _)
    | exact s.keeps_nextEntry
    | exact State.Keeps.trans (by constructor <;> simp) (State.keeps_nextEntry _)
    | (constructor <;> simp)

theorem State.keeps_checkArity (s : State) (f : Slot) (n : BitVec 8) : s.Keeps (s.checkArity f n) := by
  unfold State.checkArity
  split
  · exact .rfl
  · split
    · exact .rfl
    · constructor <;> simp

theorem State.keeps_store (s : State) (f : Slot) (op : Op) (v : Val) : s.Keeps (s.store f op v) := by
  cases f <;> simp only [State.store] <;>
    first
    | exact s.keeps_checkArity _ _
    | (constructor <;> simp)

theorem State.keeps_warnField (s : State) (f : Slot) : s.Keeps (s.warnField f) := by
  unfold State.warnField
  split <;> constructor <;> simp

theorem State.keeps_missField (s : State) (f : Slot) : s.Keeps (s.missField f) := by
  refine (s.keeps_warnField f).trans ?_
  cases f <;> simp only [State.missField] <;> constructor <;> simp

theorem State.keeps_finish (s : State) (f : Slot) (op : Op) : s.Keeps (s.finish f op) := by
  unfold State.finish
  generalize (if f.dispatches then dispatched op s.ret else s.ret) = r
  refine State.Keeps.trans (t := { s with ret := r }) (by constructor <;> rfl) ?_
  dsimp only
  split
  · constructor <;> simp
  · exact State.keeps_nextField _ _
  · exact (State.keeps_missField _ _).trans (State.keeps_nextField _ _)
  · exact (State.keeps_missField _ _).trans (State.keeps_nextField _ _)
  · exact (State.keeps_store _ _ _ _).trans (State.keeps_nextField _ _)

/-- Skipping the absent marker of the reference time moves the cursor by one; nothing else at a field moves it. -/
theorem State.settle_frame (s : State) (f : Slot) (op : Op) :
    s.Keeps (s.settle f op) ∨
      (op = .peek ∧ s.ret.status = .ok ∧ s.ret.val.byteOf = absentMark ∧ (s.advance 1).Keeps (s.settle f op)) := by
  unfold State.settle
  split
  · next hok =>
    cases op <;> dsimp only
    case peek =>
      unfold State.afterPeek
      split
      · exact .inr ⟨rfl, hok, ‹_›, State.keeps_nextField _ _⟩
      · exact .inl (by constructor <;> simp)
    case ostrLen =>
      left
      unfold State.afterOstrLen
      split
      · split
        · exact State.Keeps.trans (by constructor <;> simp) (State.keeps_finish _ _ _)
        · constructor <;> simp
      all_goals exact State.keeps_finish _ _ _
    case listLen =>
      left
      unfold State.afterListLen
      split
      · exact State.Keeps.trans (by constructor <;> simp) (State.keeps_finish _ _ _)
      · constructor <;> simp
    case isOstr =>
      left
      unfold State.afterIsOstr
      split
      · exact State.Keeps.trans (by constructor <;> simp) (State.keeps_nextField _ _)
      · constructor <;> simp
    case opt | ostrAny | unsigned | integer | status | value =>
      left
      unfold State.follow
      split
      · constructor <;> simp
      all_goals exact State.keeps_nextField _ _
    all_goals exact .inl (State.keeps_finish _ _ _)
  · exact .inl (State.keeps_finish _ _ _)

end Sys2Proof.Machine
end

