-- ==== Sys2Proof/Tests/Slice0.lean ====
section
/-! SUPPORT. The model's own tests: ill-formed terms, bytes written out from spec/30_encoding.md and the examples of the reader rules, single
steps with the results that spec/ states, and for each statement's hypotheses a state that meets them. -/

namespace Sys2Proof.Machine

open Sys2Proof

/-- Bytes in BUF from offset 0, the sequencer at a position, the cursor at 0. -/
def bench (seq : Position) (bs : List Byte) : State :=
  { State.reset with buf := bs.zipIdx.map fun (b, i) => (i, b), len := bs.length, seq := seq }

/-- The next state, where there is one. -/
def nextOf : Out → Option State
  | .next t => some t
  | .fault _ => none
  | .refused _ => none

/-! WellFormed refuses each ill-formed term. -/

theorem test_illformed_ostr_length : ¬ (Instr.ostr 3 [0xaa]).WellFormed := by decide
theorem test_illformed_xostr_chain : ¬ (Instr.xostr [] 0x02 []).WellFormed := by decide
theorem test_illformed_xostr_terminal : ¬ (Instr.xostr [0] 0x83 [0x00]).WellFormed := by decide
theorem test_illformed_xostr_total : ¬ (Instr.xostr [0] 0x01 []).WellFormed := by decide
theorem test_illformed_xostr_payload : ¬ (Instr.xostr [0] 0x04 [0xaa]).WellFormed := by decide
theorem test_illformed_unknown_open : ¬ (Instr.unknownType 0x0101).WellFormed := by decide
theorem test_illformed_unknown_close : ¬ (Instr.unknownType 0x0201).WellFormed := by decide
theorem test_illformed_unknown_getlist : ¬ (Instr.unknownType 0x0701).WellFormed := by decide
theorem test_illformed_opt : ¬ (Instr.opt 0x01).WellFormed := by decide
theorem test_wellformed_xostr : (Instr.xostr [0] 0x04 [0xaa, 0xbb]).WellFormed := by decide

/-! Decoding, one word for each constructor. -/

theorem test_decode_eom : decode .eom [0x00] = .ok .eom := by decide
theorem test_decode_absent : decode (.lex .opt) [0x01] = .ok .absent := by decide
theorem test_decode_ostr : decode (.lex .ostr) [0x03, 0xaa, 0xbb, 0x99] = .ok (.ostr 3 [0xaa, 0xbb]) := by decide
theorem test_decode_ostr_zero : decode (.lex .ostr) [0x00, 0x99] = .ok (.ostr 0 []) := by decide
theorem test_decode_xostr : decode (.lex .xostr) [0x80, 0x04, 0xaa, 0xbb] = .ok (.xostr [0] 0x04 [0xaa, 0xbb]) := by decide
theorem test_decode_xostr_bad : decode (.lex .xostr) [0x80, 0x01] = .error .badLength := by decide
theorem test_decode_u8 : decode (.lex .u8) [0x62, 0x99] = .ok (.u8 0x99) := by decide
theorem test_decode_u16 : decode (.lex .u16) [0x63, 0x07, 0x01] = .ok (.u16 0x0701) := by decide
theorem test_decode_u16_short : decode (.lex .u16) [0x63, 0x07] = .error .short := by decide
theorem test_decode_u32 : decode (.lex .u32) [0x65, 0x00, 0x01, 0xe2, 0x40] = .ok (.u32 123456) := by decide
theorem test_decode_u64 : decode (.lex .u64) [0x69, 0, 0, 0, 0, 0, 0, 0x01, 0x00] = .ok (.u64 256) := by decide
theorem test_decode_i8 : decode (.lex .i8) [0x52, 0xff] = .ok (.i8 0xFF) := by decide
theorem test_decode_i16 : decode (.lex .i16) [0x53, 0xff, 0x85] = .ok (.i16 0xFF85) := by decide
theorem test_decode_i32 : decode (.lex .i32) [0x55, 0x80, 0, 0, 0] = .ok (.i32 0x80000000) := by decide
theorem test_decode_i64 :
    decode (.lex .i64) [0x59, 0xff, 0xff, 0xff, 0xff, 0xff, 0xff, 0xff, 0xfe] = .ok (.i64 0xFFFFFFFFFFFFFFFE) := by decide
theorem test_decode_list : decode (.lex .list) [0x76] = .ok (.list 6) := by decide
theorem test_decode_list_mismatch : decode (.lex .list) [0x86] = .error .tagMismatch := by decide
theorem test_decode_timeSec : decode (.lex .time) [0x72, 0x62, 0x01, 0x65, 0x01, 0x01, 0x01, 0x01] = .ok (.timeSec 0x01010101) := by decide
theorem test_decode_timeTs : decode (.lex .time) [0x72, 0x62, 0x02, 0x65, 0x5f, 0x00, 0x00, 0x00] = .ok (.timeTs 0x5F000000) := by decide
theorem test_decode_timeLocal : decode (.lex .time) [0x72, 0x62, 0x03] = .ok .timeLocal := by decide
theorem test_decode_esc : decode .endEscape [0x1b, 0x1b, 0x1b, 0x1b] = .ok .esc := by decide
theorem test_decode_endByte : decode .endByte [0x1a] = .ok .endByte := by decide
theorem test_decode_start : decode .seekStart [0x1b, 0x1b, 0x1b, 0x1b, 0x01, 0x01, 0x01, 0x01] = .ok .start := by decide
theorem test_decode_ver : decode .version [0x01, 0x01, 0x01, 0x01] = .ok .ver := by decide
theorem test_decode_msg : decode .messageHeader [0x76] = .ok .msg := by decide
theorem test_decode_bodyList : decode .bodyList [0x72] = .ok .bodyList := by decide
theorem test_decode_openRes : decode .messageType [0x63, 0x01, 0x01] = .ok .openRes := by decide
theorem test_decode_closeRes : decode .messageType [0x63, 0x02, 0x01] = .ok .closeRes := by decide
theorem test_decode_getlistRes : decode .messageType [0x63, 0x07, 0x01] = .ok .getlistRes := by decide
theorem test_decode_unknownType : decode .messageType [0x63, 0x03, 0x01] = .ok (.unknownType 0x0301) := by decide
theorem test_decode_crc : decode .crcField [0x63, 0xd2, 0xe4] = .ok (.crc 0xD2E4) := by decide
theorem test_decode_entry : decode .entryHeader [0x77] = .ok .entry := by decide
theorem test_decode_value : decode (.lex .value) [0x65] = .ok (.value 0x65) := by decide
theorem test_decode_rdOstrAny : decode (.lex .ostrAny) [0x81] = .ok (.rdOstrAny 0x81) := by decide
theorem test_decode_rdUnsigned : decode (.lex .unsigned) [0x63] = .ok (.rdUnsigned 3) := by decide
theorem test_decode_rdInteger : decode (.lex .integer) [0x53] = .ok (.rdInteger 3) := by decide
theorem test_decode_rdStatus : decode (.lex .status) [0x62] = .ok (.rdStatus 2) := by decide
theorem test_decode_isOstr : decode (.lex .isOstr) [0x07] = .ok (.isOstr 0x07) := by decide
theorem test_decode_ostrLen : decode (.lex .ostrLen) [0x0f] = .ok (.ostrLen 0x0F) := by decide
theorem test_decode_listLen : decode (.lex .listLen) [0x76] = .ok (.listLen 0x76) := by decide
theorem test_decode_peek : decode (.lex .peek) [0x01] = .ok (.peek 0x01) := by decide
theorem test_decode_opt : decode (.lex .opt) [0x62] = .ok (.opt 0x62) := by decide
theorem test_decode_decode : decode .command [0x01] = .ok .decode := by decide
theorem test_decode_crc16 : decode .command [0x02] = .ok .crc16 := by decide
theorem test_decode_command_reserved : decode .command [0x03] = .error .tagMismatch := by decide

/-! The opcode table's words, as the table numbers their bits (entry 8). -/

theorem test_word_u32 : decodeTableWord 8 0x65 = some (.u32 0) := by decide
theorem test_word_timeLocal : decodeTableWord 24 0x726203 = some .timeLocal := by decide
theorem test_word_openRes : decodeTableWord 24 0x630101 = some .openRes := by decide
theorem test_word_fetched : ((State.reset.withFetchWord 8 0x65).seq.ctx, (State.reset.withFetchWord 8 0x65).fetchBytes.take 5) =
    (some (.lex .u32), [0x65, 0, 0, 0, 0]) := by decide

/-! Recognisers (R123, R124, R140) and the CRC engine (R161, R162, R166, R167). -/

theorem test_isOstr : isOstr 0x07 = true ∧ isOstr 0x83 = false := by decide
theorem test_ostrLen : ostrLen 0x01 = 0 ∧ ostrLen 0x07 = 6 ∧ ostrLen 0x0F = 14 ∧ ostrLen 0x62 = -1 ∧ ostrLen 0x00 = 0 := by decide
theorem test_listLen : listLen 0x76 = 6 ∧ listLen 0x86 = 0xFF := by decide
theorem test_xlen : xlen 48 = [0x83, 0x02] ∧ xlen 16 = [0x81, 0x02] := by decide
theorem test_crc_trace : crcShift 0xFF89 = 0xFBCC ∧ crc16 [0x76] = 0xE6C9 := by decide
theorem test_crc_tab : crcTab 1 = 0x1189 ∧ crcTab 255 = 0x0F78 := by decide

/-! One step, the results from spec/. -/

/-- R125's example. -/
theorem test_step_ostr :
    (nextOf (step (bench (.field .leObjName .ostr) [0x07, 0x01, 0x00, 0x01, 0x08, 0x00, 0xff]))).map (fun t => (t.pos, t.seq, t.ret.val)) =
      some (7, .field .leStatus .opt, .octets [0x01, 0x00, 0x01, 0x08, 0x00, 0xff]) := by decide
/-- R129's example. -/
theorem test_step_u8 :
    (nextOf (step (bench (.field .groupNo .u8) [0x62, 0x99]))).map (fun t => (t.pos, t.env.groupNo)) = some (2, 0x99) := by decide
/-- R130's example of a short read, and R225: SizeError, the cursor where it was. -/
theorem test_step_u16_short :
    (nextOf (step (bench (.field .msgType .u16) [0x63, 0x07]))).map (fun t => (t.pos, t.result, t.ret.val)) =
      some (0, .sizeError, .w16 0xFFFF) := by decide
/-- R316: a damaged abort-on-error field leaves 0xFF. -/
theorem test_step_abort_damaged :
    (nextOf (step (bench (.field .abortOnError .u8) [0x63, 0x00, 0x00]))).map (fun t => (t.pos, t.env.abortOnError, t.flags.warn)) =
      some (0, 0xFF, true) := by decide
/-- R221: in `1b 1b 1b 1b 1b 01 01 01 01` the match is at 1. -/
theorem test_step_start :
    (nextOf (step (bench .seekStart [0x1b, 0x1b, 0x1b, 0x1b, 0x1b, 0x01, 0x01, 0x01, 0x01]))).map (fun t => (t.pos, t.seq)) =
      some (1, .verifyHeader) := by decide
/-- R222: the other mode stops at 0 on the same bytes. -/
theorem test_step_start_escape :
    (nextOf (step { bench .seekStart [0x1b, 0x1b, 0x1b, 0x1b, 0x1b, 0x01, 0x01, 0x01, 0x01] with
      cfg := { Cfg.default with startMode := .escape4Version4 } })).map (fun t => (t.pos, t.seq)) = some (0, .verifyHeader) := by decide
/-- R223. -/
theorem test_step_ver_mismatch :
    (nextOf (step (bench .verifyHeader [0x1b, 0x1b, 0x1b, 0x1b, 0x1b, 0x01, 0x01, 0x01]))).map (fun t => (t.pos, t.result)) =
      some (0, .headerMismatch) := by decide
/-- R224, R225. -/
theorem test_step_msg :
    (nextOf (step (bench .messageLoop [0x76, 0x02]))).map (fun t => (t.pos, t.seq.stateReg)) = some (1, .readEnvelope) := by decide
/-- R224: another count ends the loop. -/
theorem test_step_msg_other :
    (nextOf (step (bench .messageLoop [0x75]))).map (fun t => (t.pos, t.seq)) = some (0, .seekEnd) := by decide
/-- R226, R282: strict is a warning. -/
theorem test_step_bodyList_strict :
    (nextOf (step (bench .bodyList [0x73]))).map (fun t => (t.pos, t.result, t.ev.map (·.code))) = some (1, .ok, [.wArityBody]) := by decide
/-- R226, R282: tolerant is fatal. -/
theorem test_step_bodyList_tolerant :
    (nextOf (step { bench .bodyList [0x73] with env := { Env.reset with abortOnError := 0xFF } })).map (fun t => (t.result, t.seq)) =
      some (.syntaxError, .error) := by decide
/-- R234: strict is fatal. -/
theorem test_step_eom :
    (nextOf (step (bench .eom [0x76]))).map (fun t => (t.pos, t.result)) = some (0, .syntaxError) := by decide
/-- R235: the end byte in a tolerant message. -/
theorem test_step_endByte_tolerant :
    (nextOf (step { bench .endByte [0x1b] with env := { Env.reset with abortOnError := 0xFF } })).map (fun t => (t.pos, t.ev.map (·.code))) =
      some (0, [.wEndByte]) := by decide
/-- R232: an unknown type is fatal. -/
theorem test_step_unknownType :
    (nextOf (step { bench .dispatch [] with env := { Env.reset with msgType := 0x0301 } })).map (fun t => (t.result, t.ev.map (·.code))) =
      some (.unknownMessageType, [.fUnknownType]) := by decide
/-- R164: one byte `76` checksums to 0xE6C9 (R161); the same field fails with CRC_SWAP. -/
theorem test_step_crc :
    (nextOf (step { bench .crcField [0x76, 0x63, 0xe6, 0xc9] with pos := 1 })).map (fun t => (t.pos, t.env.crcComputed, t.flags.crcErr)) =
      some (4, 0xE6C9, false) := by decide
theorem test_step_crc_swap :
    (nextOf (step { bench .crcField [0x76, 0x63, 0xe6, 0xc9] with pos := 1, cfg := { Cfg.default with crcSwap := true } })).map
      (fun t => (t.pos, t.flags.crcErr, t.ev.map (·.loc))) = some (4, true, [4]) := by decide
/-- R201: an unsupported type is left unset, nothing consumed. -/
theorem test_step_value_unsupported :
    (nextOf (step (bench (.field .leValue .value) [0x83, 0x02]))).map (fun t => (t.pos, t.seq, t.ev.map (·.code))) =
      some (0, .field .leValueSignature .opt, [.wValueUnsupported]) := by decide
/-- R183: the probe at an octet-string tag. -/
theorem test_step_reftime_probe :
    (nextOf (step (bench (.field .openRefTime .isOstr) [0x02, 0xaa]))).map (fun t => (t.pos, t.seq, t.ev.map (·.code))) =
      some (0, .field .openVersion .opt, [.wReftimeProbe]) := by decide
/-- R146: `OPT(RD_U8)` at `01`. -/
theorem test_step_absent :
    (nextOf (step (bench (.field .leUnit .opt) [0x01]))).map (fun t => (t.pos, t.ret.status, t.seq)) =
      some (1, .absent, .field .leScaler .opt) := by decide
/-- R165 with R161's worked trace: the CRC16 command over one byte. -/
theorem test_step_crc16 :
    (nextOf (step { bench .idle [0x31, 0x76] with cmd := some 0x02, crcop := { start := 1, len := 1, out := 0 } })).map
      (fun t => (t.crcop.out, t.seq)) = some (0xE6C9, .idle) := by decide
/-- R22: a write while STATE is running is refused. -/
theorem test_step_command_refused :
    (nextOf (step { bench .messageLoop [0x76] with cmd := some 0x01 })).map (fun t => (t.seq, t.pos, t.cmd)) =
      some (.messageLoop, 0, none) := by decide
/-- R27: FLAGS as a word. -/
theorem test_flags_word : ({ crcErr := true, warn := false, finished := true } : FlagReg).word = 0b101 := by decide
/-- R261, R260. -/
theorem test_unit : getUnitAsString 0x1E = "Wh" ∧ getUnitAsString 0x1C = "" := ⟨rfl, rfl⟩
theorem test_query : getElementByObis Document.empty #v[0x01, 0x00, 0x01, 0x08, 0x00, 0xff] = none := by decide

/-! For each statement with hypotheses, states and operands that meet them: each clause, at the ends of its range. -/

/-- The bench in a message whose abort-on-error is TOLERANT. -/
def tolerantBench (seq : Position) (bs : List Byte) : State :=
  { bench seq bs with env := { Env.reset with abortOnError := 0xFF } }

/-- The bench at a list entry of a one-entry list. -/
def entryBench (seq : Position) (bs : List Byte) : State :=
  { bench seq bs with doc := { Document.empty with lists := [{ ListResponse.fresh with entries := [ListEntry.fresh] }] } }

theorem test_wit_DecodeEncode :
    (Instr.xostr [0] 0x04 [0xaa, 0xbb]).WellFormed ∧ (Instr.ostr 0 []).WellFormed ∧
    (Instr.ostr 15 [1, 2, 3, 4, 5, 6, 7, 8, 9, 10, 11, 12, 13, 14]).WellFormed ∧ (Instr.unknownType 0x0301).WellFormed ∧
    (Instr.opt 0x00).WellFormed := by decide

theorem test_wit_DecodeSound : decode (.lex .ostr) [0x01, 0x62] = .ok (.ostr 1 []) := by decide

theorem test_wit_ExtendedLengthRoundTrip_window :
    (bench (.field .closeSignature .xostr) [0x80, 0x03, 0xaa, 0x62]).window = xlen 1 ++ [0xaa] ++ [0x62] := by decide
theorem test_wit_ExtendedLengthRoundTrip_counts :
    (List.replicate 253 (0 : Byte)).length ≤ 253 ∧
    (253 < (List.replicate 254 (0 : Byte)).length ∧ (List.replicate 4092 (0 : Byte)).length ≤ 4092) ∧
    (4092 < (List.replicate 4093 (0 : Byte)).length ∧ (List.replicate 65531 (0 : Byte)).length ≤ 65531) ∧
    (2 ≤ 2 ∧ 2 < xlenCount 254 ∧ 0 < xlenCount 0) := by
  simp only [List.length_replicate]
  decide

theorem test_wit_CrcResidue :
    ∀ j, j < 2 → (bench .idle [1, 2, 1, 2]).buf.byte (0 + j) = (bench .idle [1, 2, 1, 2]).buf.byte (2 + j) := by decide

theorem test_wit_FixedWidthReaders_cut :
    ∀ p ∈ [((0x62 : Byte), 1), (0x63, 2), (0x65, 4), (0x69, 8), (0x52, 1), (0x53, 2), (0x55, 4), (0x59, 8)],
      ((bench .idle []).len ≤ (bench .idle []).pos ∧ (bench .idle []).len < (bench .idle []).pos + 1 + p.2) ∧
      (let s := bench .idle [p.1]; s.pos < s.len ∧ s.buf.byte s.pos = p.1 ∧ s.len < s.pos + 1 + p.2) ∧
      (let s := bench .idle [0x01]; s.pos < s.len ∧ s.buf.byte s.pos ≠ p.1) := by decide
theorem test_wit_FixedWidthReaders_whole :
    ∀ p ∈ [((0x62 : Byte), 1), (0x63, 2), (0x65, 4), (0x69, 8), (0x52, 1), (0x53, 2), (0x55, 4), (0x59, 8)],
      let s := bench .idle (p.1 :: List.replicate p.2 0xFF); s.pos + 1 + p.2 ≤ s.len ∧ s.buf.byte s.pos = p.1 := by decide

theorem test_wit_ShortOctetString :
    ((bench .idle []).len ≤ (bench .idle []).pos) ∧
    (let s := bench .idle [0x10]; s.pos < s.len ∧ 16 ≤ (s.buf.byte s.pos).toNat) ∧
    (let s := bench .idle [0x0F]; s.pos < s.len ∧ (s.buf.byte s.pos).toNat < 16 ∧ s.len < s.pos + 1 + ((s.buf.byte s.pos).toNat - 1)) ∧
    (let s := bench .idle [0x00]; s.pos < s.len ∧ (s.buf.byte s.pos).toNat < 16 ∧ s.pos + 1 + ((s.buf.byte s.pos).toNat - 1) ≤ s.len) ∧
    (let s := bench .idle [0x02, 0xaa]; s.pos + 1 + [(0xaa : Byte)].length ≤ s.len ∧ s.len < s.pos + 1 + [(0xaa : Byte), 0xbb].length) := by
  decide

theorem test_wit_ExtendedOctetString_cut :
    ((bench .idle []).len ≤ (bench .idle []).pos) ∧
    (let s := bench .idle [0x02]; s.pos < s.len ∧ hi (s.buf.byte s.pos) ≠ 8) ∧
    (let s := bench .idle [0x80, 0x81]; s.pos < s.len ∧ ∀ b ∈ s.window, hi b = 8) := by decide
theorem test_wit_ExtendedOctetString_total :
    ([0] : List (BitVec 4)) ≠ [] ∧ hi 0x02 ≠ 8 ∧
    (let s := bench .idle [0x80, 0x01]; s.window = [(0 : BitVec 4)].map (tlByte 8) ++ 0x01 :: [] ∧ ofNibbles [0, lo 0x01] < 1 + 1) ∧
    (let s := bench .idle [0x80, 0x03]; s.window = [(0 : BitVec 4)].map (tlByte 8) ++ 0x03 :: [] ∧
      1 + 1 ≤ ofNibbles [0, lo 0x03] ∧ ([] : List Byte).length < ofNibbles [0, lo 0x03] - (1 + 1)) ∧
    (let s := bench .idle [0x80, 0x02]; s.window = [(0 : BitVec 4)].map (tlByte 8) ++ 0x02 :: [] ∧
      1 + 1 ≤ ofNibbles [0, lo 0x02] ∧ ofNibbles [0, lo 0x02] - (1 + 1) ≤ ([] : List Byte).length ∧
      s.pos + (1 + 1 + ([] : List Byte).length) ≤ s.len) := by decide

theorem test_wit_RecognisersAndPeek :
    ((bench .idle []).len ≤ (bench .idle []).pos) ∧ ((bench .idle [0x01]).pos < (bench .idle [0x01]).len) := by decide

theorem test_wit_ListHeader :
    ((bench .idle []).len ≤ (bench .idle []).pos ∧ (bench .idle []).len < (bench .idle []).pos + 1) ∧
    (let s := bench .idle [0x6F]; s.pos < s.len ∧ (s.buf.byte s.pos).toNat / 16 ≠ 7) ∧
    (let s := bench .idle [0x70]; s.pos < s.len ∧ (s.buf.byte s.pos).toNat / 16 = 7 ∧ s.pos + 1 ≤ s.len) := by decide

theorem test_wit_TimeReader :
    ((0x71 : Byte) ≠ 0x72) ∧ ((0x63 : Byte) ≠ 0x62) ∧ ((0x00 : Byte).toNat = 0 ∧ 3 < (0x04 : Byte).toNat) ∧
    ((0x01 : Byte).toNat = 1 ∧ (0x02 : Byte).toNat = 2) ∧ ((0x62 : Byte) ≠ 0x65) ∧ ([1, 2, 3] : List Byte).length < 4 ∧
    (let s := bench .idle (List.replicate 8 0x01); s.pos + 8 ≤ s.len ∧ s.pos + 3 ≤ s.len) ∧
    (let s := bench (.field .leValTime .time) [0x72, 0x62, 0x01, 0x65, 0x00];
      s.cmd = none ∧ s.seq = .field .leValTime .time ∧ decode (.lex .time) s.window = .error .short) := by decide

theorem test_wit_OptionalConvention_reader :
    (let s := bench (.field .leScaler .opt) [0x00];
      s.cmd = none ∧ s.seq = .field .leScaler .opt ∧ s.pos < s.len ∧ s.buf.byte s.pos ≠ 0x01) := by decide
theorem test_wit_OptionalConvention :
    (let s := bench (.field .leUnit .opt) [0x01]; s.pos + 1 ≤ s.len ∧ s.pos < s.len ∧ s.buf.byte s.pos = 0x01) ∧
    (let s := bench (.field .leUnit .opt) [0x62]; s.seq = .field .leUnit .opt ∧ s.pos < s.len ∧ s.buf.byte s.pos ≠ 0x01) ∧
    ((0x62 : Byte) ≠ 0x01) ∧ ((bench .idle []).len ≤ (bench .idle []).pos) := by decide

theorem test_wit_ValueProbe :
    (0x0F : Byte).toNat / 16 = 0 ∧ (0x50 : Byte).toNat / 16 = 5 ∧ (0x6F : Byte).toNat / 16 = 6 ∧
    ((0x70 : Byte).toNat / 16 ≠ 0 ∧ (0x70 : Byte).toNat / 16 ≠ 5 ∧ (0x70 : Byte).toNat / 16 ≠ 6) := by decide
theorem test_wit_ValueProbe_step :
    (∀ p ∈ [((0x00 : Byte), 0), (0x0F, 0), (0x50, 5), (0x5F, 5), (0x60, 6), (0x6F, 6), (0x10, 1), (0x4F, 4), (0x70, 7), (0xFF, 15)],
      let s := bench (.field .leValue .value) [p.1];
      s.cmd = none ∧ s.seq = .field .leValue .value ∧ s.pos < s.len ∧ p.2 = (s.buf.byte s.pos).toNat / 16) ∧
    ((bench (.field .leValue .value) []).len ≤ (bench (.field .leValue .value) []).pos) := by decide

theorem test_wit_FatalAndWarningEntry :
    (FatalCode.sizeError, ResultCode.sizeError, EventCode.fSizeError) ∈
      [(FatalCode.headerMismatch, ResultCode.headerMismatch, EventCode.fHeaderMismatch),
        (.syntaxError, .syntaxError, .fSyntaxError), (.sizeError, .sizeError, .fSizeError),
        (.unknownMessageType, .unknownMessageType, .fUnknownType)] ∧ (bench .eom []).cmd = none := by decide

theorem test_wit_SeekStartFirstMatch :
    (let s := bench .seekStart [0xde, 0x1b, 0x1b, 0x1b, 0x1b, 0x01, 0x01, 0x01, 0x01];
      s.cfg.startMode = .pattern8 ∧ 1 + 8 ≤ s.len ∧ s.buf.bytes 1 8 = [0x1b, 0x1b, 0x1b, 0x1b, 0x01, 0x01, 0x01, 0x01] ∧
      ∀ j, j < 1 → s.buf.bytes j 8 ≠ [0x1b, 0x1b, 0x1b, 0x1b, 0x01, 0x01, 0x01, 0x01]) ∧
    (let s := { bench .seekStart [0x1b, 0x1b, 0x1b, 0x1b] with cfg := { Cfg.default with startMode := .escape4Version4 } };
      s.cfg.startMode = .escape4Version4 ∧ 0 + 4 ≤ s.len ∧ s.buf.bytes 0 4 = [0x1b, 0x1b, 0x1b, 0x1b]) := by decide
theorem test_wit_SeekStartFirstMatch_none :
    ∀ k, k + 8 ≤ (bench .seekStart []).len → (bench .seekStart []).buf.bytes k 8 ≠ [0x1b, 0x1b, 0x1b, 0x1b, 0x01, 0x01, 0x01, 0x01] :=
  fun _ h => absurd h (Nat.not_succ_le_zero _)

theorem test_wit_VerifyHeader :
    (let s := bench .verifyHeader [0x1b, 0x1b, 0x1b, 0x1b, 0x01, 0x01, 0x01]; s.len < s.pos + 8) ∧
    (let s := bench .verifyHeader [0x1b, 0x1b, 0x1b, 0x1b, 0x01, 0x01, 0x01, 0x02];
      s.pos + 8 ≤ s.len ∧ s.buf.bytes (s.pos + 4) 4 ≠ [0x01, 0x01, 0x01, 0x01]) ∧
    (let s := bench .verifyHeader [0x1b, 0x1b, 0x1b, 0x1b, 0x01, 0x01, 0x01, 0x01];
      s.pos + 8 ≤ s.len ∧ s.buf.bytes s.pos 4 = [0x1b, 0x1b, 0x1b, 0x1b] ∧ s.buf.bytes (s.pos + 4) 4 = [0x01, 0x01, 0x01, 0x01]) := by
  decide
theorem test_wit_VerifyHeader_pattern :
    (let s := bench .seekStart [0x1b, 0x1b, 0x1b, 0x1b, 0x01, 0x01, 0x01, 0x01];
      s.cmd = none ∧ s.cfg.startMode = .pattern8 ∧ s.seq = .seekStart ∧
      (nextOf (step s)).map (·.seq) = some .verifyHeader) := by decide

theorem test_wit_MessageGuard :
    (let s := { bench .messageLoop [0x76] with flags := { FlagReg.clear with finished := true } }; s.flags.finished = true) ∧
    (let s := bench .messageLoop [0x76]; s.flags.finished = false ∧ s.pos < s.len ∧ s.buf.byte s.pos = 0x76) ∧
    (let s := bench .messageLoop [0x75]; s.flags.finished = false ∧ s.buf.byte s.pos ≠ 0x76) ∧
    (let s := bench .messageLoop []; s.flags.finished = false ∧ s.len ≤ s.pos) := by decide

theorem test_wit_EnvelopeByteFields :
    ∀ f ∈ [Slot.groupNo, Slot.abortOnError],
      (let s := bench (.field f .u8) [0x62, 0x00]; s.cmd = none ∧ s.seq = .field f .u8 ∧ s.pos + 2 ≤ s.len ∧ s.buf.byte s.pos = 0x62) ∧
      (let s := bench (.field f .u8) [0x63]; s.cmd = none ∧ s.seq = .field f .u8 ∧ s.pos < s.len ∧ s.buf.byte s.pos ≠ 0x62) ∧
      (let s := bench (.field f .u8) [0x62]; s.seq = .field f .u8 ∧ s.buf.byte s.pos = 0x62 ∧ s.len < s.pos + 2) ∧
      (let s := bench (.field f .u8) []; s.seq = .field f .u8 ∧ s.len ≤ s.pos) := by decide

theorem test_wit_TransactionIdField :
    (let s := bench (.field .transactionId .ostrLen) [0x00];
      s.cmd = none ∧ s.seq = .field .transactionId .ostrLen ∧ s.pos < s.len ∧ 0 = (s.buf.byte s.pos).toNat - 1 ∧
      (s.buf.byte s.pos).toNat < 16 ∧ s.pos + 1 + 0 ≤ s.len) ∧
    (let s := bench (.field .transactionId .ostrLen) [0x0F];
      s.pos < s.len ∧ 14 = (s.buf.byte s.pos).toNat - 1 ∧ (s.buf.byte s.pos).toNat < 16 ∧ s.len < s.pos + 1 + 14) ∧
    (let s := bench (.field .transactionId .ostrLen) [0x10]; s.pos < s.len ∧ 16 ≤ (s.buf.byte s.pos).toNat) := by decide

theorem test_wit_BodyListCheck :
    ((bench .bodyList []).len ≤ (bench .bodyList []).pos) ∧
    (let s := bench .bodyList [0x72]; s.pos < s.len ∧ s.buf.byte s.pos = 0x72 ∧ s.cfg.policy = Policy.default) ∧
    (let s := bench .bodyList [0x73];
      s.pos < s.len ∧ s.buf.byte s.pos ≠ 0x72 ∧ s.cfg.policy.treatment .bodyListArity s.env.abortOnError = .warn) ∧
    (let s := tolerantBench .bodyList [0x62];
      s.pos < s.len ∧ s.buf.byte s.pos ≠ 0x72 ∧ s.cfg.policy.treatment .bodyListArity s.env.abortOnError = .fatal) := by decide

theorem test_wit_MessageTypeField :
    (let s := bench (.field .msgType .u16) [0x63, 0x01, 0x01];
      s.cmd = none ∧ s.seq = .field .msgType .u16 ∧ s.pos + 3 ≤ s.len ∧ s.buf.byte s.pos = 0x63) ∧
    (let s := bench (.field .msgType .u16) [0x63, 0x01]; s.buf.byte s.pos = 0x63 ∧ s.len < s.pos + 3) ∧
    (let s := bench (.field .msgType .u16) []; s.len ≤ s.pos) ∧
    (let s := bench (.field .msgType .u16) [0x62]; s.pos < s.len ∧ s.buf.byte s.pos ≠ 0x63) := by decide

theorem test_wit_DispatchBody :
    ∀ ty ∈ [(0x0101 : BitVec 16), 0x0701, 0x0201, 0x0000],
      let s := { bench .dispatch [] with env := { Env.reset with msgType := ty } };
      s.cmd = none ∧ s.seq = .dispatch ∧ s.env.msgType = ty := fun _ _ => ⟨rfl, rfl, rfl⟩

theorem test_wit_EntryHeader :
    ((entryBench .entryHeader []).len ≤ (entryBench .entryHeader []).pos) ∧
    (let s := entryBench .entryHeader [0x77]; s.pos < s.len ∧ s.buf.byte s.pos = 0x77) ∧
    (let s := entryBench .entryHeader [0x76]; s.pos < s.len ∧ s.buf.byte s.pos ≠ 0x77 ∧ (s.buf.byte s.pos).toNat / 16 = 7) ∧
    (let s := entryBench .entryHeader [0x07]; s.pos < s.len ∧ (s.buf.byte s.pos).toNat / 16 ≠ 7) := by decide

theorem test_wit_CrcField :
    (let s := { bench .crcField [0x76, 0x63, 0xe6, 0xc9] with pos := 1 };
      s.cmd = none ∧ s.seq = .crcField ∧ s.pos + 3 ≤ s.len ∧ s.buf.byte s.pos = 0x63 ∧ 0xE6C9 = crc16 (s.buf.bytes 0 1) ∧
      0xC9E6 ≠ crc16 (s.buf.bytes 0 1)) ∧
    (let s := { bench .crcField [0x76, 0x63, 0xe6] with pos := 1 }; s.buf.byte s.pos = 0x63 ∧ s.len < s.pos + 3) ∧
    (let s := { bench .crcField [0x76] with pos := 1 }; s.len ≤ s.pos) ∧
    (let s := { bench .crcField [0x76, 0x00] with pos := 1 }; s.pos < s.len ∧ s.buf.byte s.pos ≠ 0x63) := by decide

theorem test_wit_EomCheck :
    ((bench .eom []).len ≤ (bench .eom []).pos) ∧
    (let s := bench .eom [0x00]; s.pos < s.len ∧ s.buf.byte s.pos = 0x00 ∧ s.cfg.policy = Policy.default) ∧
    (let s := bench .eom [0x01]; s.pos < s.len ∧ s.buf.byte s.pos ≠ 0x00 ∧ s.cfg.policy.treatment .eom s.env.abortOnError = .fatal) ∧
    (let s := tolerantBench .eom [0x01];
      s.pos < s.len ∧ s.buf.byte s.pos ≠ 0x00 ∧ s.cfg.policy.treatment .eom s.env.abortOnError = .warn) := by decide

theorem test_wit_ClosingSequence_escape :
    (let s := bench .endEscape [0x1b, 0x1b, 0x1b]; s.len < s.pos + 4) ∧
    (let s := bench .endEscape [0x1b, 0x1b, 0x1b, 0x1b]; s.pos + 4 ≤ s.len ∧ s.buf.bytes s.pos 4 = [0x1b, 0x1b, 0x1b, 0x1b]) ∧
    (let s := bench .endEscape [0x1b, 0x1b, 0x1b, 0x1a];
      s.pos + 4 ≤ s.len ∧ s.buf.bytes s.pos 4 ≠ [0x1b, 0x1b, 0x1b, 0x1b] ∧
      s.cfg.policy.treatment .endEscape s.env.abortOnError = .fatal) ∧
    (let s := tolerantBench .endEscape [0x1b, 0x1b, 0x1b, 0x1a];
      s.pos + 4 ≤ s.len ∧ s.buf.bytes s.pos 4 ≠ [0x1b, 0x1b, 0x1b, 0x1b] ∧
      s.cfg.policy.treatment .endEscape s.env.abortOnError = .warn) := by decide
theorem test_wit_ClosingSequence_end :
    ((bench .endByte []).len ≤ (bench .endByte []).pos ∧ (bench .endByte []).cfg.policy = Policy.default) ∧
    (let s := bench .endByte [0x1a]; s.pos < s.len ∧ s.buf.byte s.pos = 0x1a) ∧
    (let s := bench .endByte [0x1b]; s.pos < s.len ∧ s.buf.byte s.pos ≠ 0x1a ∧ s.cfg.policy.treatment .endByte s.env.abortOnError = .fatal) ∧
    (let s := tolerantBench .endByte [0x1b];
      s.pos < s.len ∧ s.buf.byte s.pos ≠ 0x1a ∧ s.cfg.policy.treatment .endByte s.env.abortOnError = .warn) := by decide

theorem test_wit_SeekEndAndRest :
    ((bench .seekEnd []).cmd = none ∧ (bench .seekEnd []).seq = .seekEnd) ∧
    ((bench .done []).cmd = none ∧ (bench .done []).resting = true) := by decide

theorem test_wit_FailedFieldRead :
    (let s := bench (.field .closeSignature .xostr) [0x80, 0x01];
      s.cmd = none ∧ s.seq = .field .closeSignature .xostr ∧ decode (.lex .xostr) s.window = .error .badLength) ∧
    (let s := bench (.field .leValTime .time) [0x72, 0x62, 0x04]; decode (.lex .time) s.window = .error .tagMismatch) ∧
    (let s := bench (.field .leUnit .u8) []; decode (.lex .u8) s.window = .error .short) := by decide
/-- A tag that the dispatcher or the recogniser itself takes and whose reader does not: missed, at each kind of field. -/
theorem test_wit_FailedFieldRead_tag :
    (let s := bench (.field .leStatus .status) [0x64]; s.pos < s.len ∧ rejectsTag .status (s.buf.byte s.pos)) ∧
    (let s := { bench (.field .openReqField .ostrLen) [0x10] with doc := { Document.empty with opened := some OpenResponse.fresh } };
      s.pos < s.len ∧ rejectsTag .ostrLen (s.buf.byte s.pos) ∧ s.doc.opened = some OpenResponse.fresh ∧
      OpenResponse.fresh.reqField = [] ∧ OpenResponse.fresh.serverId = []) ∧
    (let s := entryBench (.field .glServerId .ostrLen) [0xff];
      rejectsTag .ostrLen (s.buf.byte s.pos) ∧ s.doc.lists = [] ++ [{ ListResponse.fresh with entries := [ListEntry.fresh] }] ∧
      ListResponse.fresh.serverId = []) ∧
    (let s := { entryBench (.field .leValueSignature .ostrAny) [0x10] with entriesLeft := 0 + 1 };
      rejectsTag .ostrAny (s.buf.byte s.pos) ∧ s.entriesLeft = 0 + 1) := by
  refine ⟨⟨by decide, ?_⟩, ⟨by decide, ?_, rfl, rfl, rfl⟩, ⟨?_, rfl, rfl⟩, ?_, rfl⟩
  · show (0x64 : Byte) ∉ ([0x62, 0x63, 0x65, 0x69] : List Byte)
    decide
  · show (0x10 : Byte).toNat / 16 ≠ 0
    decide
  · show (0xff : Byte).toNat / 16 ≠ 0
    decide
  · show (0x10 : Byte).toNat / 16 ≠ 0 ∧ (0x10 : Byte).toNat / 16 ≠ 8
    decide

theorem test_wit_ArityChecks :
    ∀ p ∈ [(Slot.openArity, (6 : BitVec 4)), (.closeArity, 1), (.glArity, 7)],
      (let s := bench (.field p.1 .listLen) [tlByte 7 p.2];
        s.cmd = none ∧ s.seq = .field p.1 .listLen ∧ s.pos < s.len ∧ s.buf.byte s.pos = tlByte 7 p.2) ∧
      (let s := bench (.field p.1 .listLen) [0x70];
        s.pos < s.len ∧ (s.buf.byte s.pos).toNat / 16 = 7 ∧ s.buf.byte s.pos ≠ tlByte 7 p.2) ∧
      (let s := bench (.field p.1 .listLen) [0x6F]; s.pos < s.len ∧ (s.buf.byte s.pos).toNat / 16 ≠ 7) ∧
      (let s := bench (.field p.1 .listLen) []; s.len ≤ s.pos) := by decide
theorem test_wit_ArityChecks_rows :
    (Slot.closeArity, Slot.closeSignature, (1 : BitVec 4), EventCode.wArityClose) ∈
      [(Slot.openArity, Slot.openCodepage, (6 : BitVec 4), EventCode.wArityOpen),
        (.closeArity, .closeSignature, 1, .wArityClose), (.glArity, .glClientId, 7, .wArityGetlist)] := by decide

theorem test_wit_AbsentOptionalFields :
    (let s := bench (.field .leUnit .opt) [0x01];
      s.cmd = none ∧ s.seq = .field .leUnit .opt ∧ s.pos < s.len ∧ s.buf.byte s.pos = 0x01) := by decide

/-- The last field of an entry, another one to come and none: both ends of the loop. -/
theorem test_wit_AbsentOptionalFields_loop :
    ∀ n ∈ [0, 14],
      let s := { entryBench (.field .leValueSignature .opt) [0x01] with entriesLeft := n + 1 };
      s.cmd = none ∧ s.seq = .field .leValueSignature .opt ∧ s.pos < s.len ∧ s.buf.byte s.pos = 0x01 ∧ s.entriesLeft = n + 1 := by decide

/-- Short octet strings at both ends of their lengths, the marker's length apart. -/
theorem test_wit_PresentFieldsStored_string :
    (bench (.field .openCodepage .opt) [0x00, 0x62]).ostrAt 0 [] ∧
    (bench (.field .openCodepage .opt) (0x0F :: List.replicate 14 0xaa)).ostrAt 15 (List.replicate 14 0xaa) ∧
    (entryBench (.field .leValue .value) [0x01]).ostrAt 1 [] :=
  ⟨⟨rfl, [0x62], by decide⟩, ⟨rfl, [], by decide⟩, ⟨rfl, [], by decide⟩⟩
/-- A signature as a short and as an extended octet string. -/
theorem test_wit_PresentFieldsStored_signature :
    (bench (.field .closeSignature .opt) [0x03, 0xde, 0xad]).signatureAt [0xde, 0xad] 3 4 ∧
    (bench (.field .closeSignature .opt) [0x80, 0x04, 0xde, 0xad]).signatureAt [0xde, 0xad] 4 3 :=
  ⟨.inl ⟨rfl, rfl, 3, by decide, rfl, [], by decide⟩, .inr ⟨rfl, [0], 0x04, [], by decide⟩⟩
/-- The three times (R89). -/
theorem test_wit_PresentFieldsStored_time :
    (bench (.field .leValTime .opt) [0x72, 0x62, 0x01, 0x65, 0, 0, 0x10, 0]).timeAt (.secIndex 0x1000) 8 ∧
    (bench (.field .leValTime .opt) [0x72, 0x62, 0x02, 0x65, 0, 0, 0x10, 0]).timeAt (.timestamp 0x1000) 8 ∧
    (bench (.field .openRefTime .peek) [0x72, 0x62, 0x03]).timeAt .localTimestamp 3 :=
  ⟨⟨[], .inl ⟨_, rfl, rfl, by decide⟩⟩, ⟨[], .inr (.inl ⟨_, rfl, rfl, by decide⟩)⟩, ⟨[], .inr (.inr ⟨rfl, rfl, by decide⟩)⟩⟩
/-- The records, and the one-byte numbers. -/
theorem test_wit_PresentFieldsStored_records :
    (let s := { bench (.field .openVersion .opt) [0x62, 0x02] with
        doc := { Document.empty with opened := some OpenResponse.fresh, closed := some CloseResponse.fresh } };
      s.cmd = none ∧ s.doc.opened = some OpenResponse.fresh ∧ s.doc.closed = some CloseResponse.fresh ∧
      s.window = 0x62 :: 0x02 :: [] ∧ s.seq = .field .openVersion .opt) ∧
    (let s := { entryBench (.field .leScaler .opt) [0x52, 0xff] with entriesLeft := 0 + 1 };
      s.window = 0x52 :: 0xff :: [] ∧ s.seq = .field .leScaler .opt ∧ s.entriesLeft = 0 + 1 ∧
      s.doc.lists = [] ++ [{ ListResponse.fresh with entries := [] ++ [ListEntry.fresh] }]) := by decide

theorem test_wit_RequiredStrings_open :
    ∀ f ∈ [Slot.openReqField, Slot.openServerId], ∀ p ∈ [(Op.ostrLen, 2), (Op.ostr, 1)],
      let s := { bench (.field f p.1) [0x01, 0x62] with doc := { Document.empty with opened := some OpenResponse.fresh } };
      s.cmd = none ∧ ([] : List Byte).length = ostrPayload 1 ∧ s.window = tlByte 0 1 :: [] ++ [0x62] ∧ s.seq = .field f p.1 ∧
      s.doc.opened = some OpenResponse.fresh := by decide
theorem test_wit_RequiredStrings_list :
    ∀ p ∈ [(Op.ostrLen, 2), (Op.ostr, 1)],
      (let s := entryBench (.field .glServerId p.1) [0x02, 0xaa];
        s.cmd = none ∧ [(0xaa : Byte)].length = ostrPayload 2 ∧ s.window = tlByte 0 2 :: [0xaa] ++ [] ∧ s.seq = .field .glServerId p.1 ∧
        s.doc.lists = [] ++ [{ ListResponse.fresh with entries := [ListEntry.fresh] }]) ∧
      (let s := entryBench (.field .leObjName p.1) [0x02, 0xaa];
        s.seq = .field .leObjName p.1 ∧ s.doc.lists = [] ++ [{ ListResponse.fresh with entries := [] ++ [ListEntry.fresh] }]) := by decide

theorem test_wit_ReferenceTimeProbe :
    ∀ b ∈ [(0x00 : Byte), 0x01, 0x0F, 0x10, 0x72],
      let s := bench (.field .openRefTime .peek) [b];
      s.cmd = none ∧ s.seq = .field .openRefTime .peek ∧ s.pos < s.len ∧ s.buf.byte s.pos = b := by decide
theorem test_wit_ReferenceTimeProbe_end :
    (bench (.field .openRefTime .peek) []).len ≤ (bench (.field .openRefTime .peek) []).pos := by decide

theorem test_wit_ValueListCount :
    (∀ n ∈ [(0 : BitVec 4), 15],
      let s := entryBench (.field .glValList .listLen) [tlByte 7 n];
      s.cmd = none ∧ s.seq = .field .glValList .listLen ∧ s.pos < s.len ∧ s.buf.byte s.pos = tlByte 7 n) ∧
    (let s := entryBench (.field .glValList .listLen) [0x80]; s.pos < s.len ∧ (s.buf.byte s.pos).toNat / 16 ≠ 7) := by decide

theorem test_wit_DispatchedNumbersStored :
    ∀ w ∈ [1, 2, 4, 8],
      (∀ op ∈ [Op.value, .unsigned],
        let s := entryBench (.field .leValue op) (BitVec.ofNat 8 (0x61 + w) :: List.replicate w 0xFF);
        s.cmd = none ∧ s.doc.lists = [] ++ [{ ListResponse.fresh with entries := [] ++ [ListEntry.fresh] }] ∧ w ∈ [1, 2, 4, 8] ∧
        s.pos + 1 + w ≤ s.len ∧ s.seq = .field .leValue op ∧ (s.buf.byte s.pos).toNat = 0x61 + w) ∧
      (∀ op ∈ [Op.value, .integer],
        let s := entryBench (.field .leValue op) (BitVec.ofNat 8 (0x51 + w) :: List.replicate w 0xFF);
        s.seq = .field .leValue op ∧ (s.buf.byte s.pos).toNat = 0x51 + w) ∧
      (∀ op ∈ [Op.opt, .status],
        let s := entryBench (.field .leStatus op) (BitVec.ofNat 8 (0x61 + w) :: List.replicate w 0xFF);
        s.seq = .field .leStatus op ∧ (s.buf.byte s.pos).toNat = 0x61 + w) := by decide

theorem test_wit_DecodeCommand :
    (bench .idle []).seq = .idle ∧ (bench .done []).seq = .done ∧ (bench .error []).seq = .error := by decide

theorem test_wit_Crc16Command :
    (let s := bench .idle [0x31]; s.resting = true ∧ s.crcop.start + s.crcop.len ≤ s.len) ∧
    (let s := { bench .idle [0x31] with crcop := { start := 1, len := 1, out := 0 } };
      s.resting = true ∧ s.len < s.crcop.start + s.crcop.len) := by decide

theorem test_wit_CommandAcceptance :
    (∀ b ∈ [(0x00 : Byte), 0x01, 0x02, 0x03],
      let s := { bench .done [] with cmd := some b }; s.cmd = some b ∧ s.resting = true) ∧
    (let s := { bench .eom [] with cmd := some 0x01 }; s.cmd = some 0x01 ∧ s.resting = false) := by decide

theorem test_wit_StepRunsDecoded :
    (let s := bench .eom [0x00]; s.cmd = none ∧ s.seq.ctx = some .eom ∧ decode .eom s.fetchBytes = .ok .eom) ∧
    (let s := bench (.field .leUnit .u8) [0x62, 0x1e];
      s.seq.ctx = some (.lex .u8) ∧ decode (.lex .u8) s.fetchBytes = .ok (.u8 0x1E) ∧ (nextOf (exec (.u8 0x1E) s)).isSome) ∧
    (let s := { bench .idle [] with cmd := some 0x01 }; s.resting = true ∧ decode .command [0x01] = .ok .decode) := by decide
theorem test_wit_StepRunsDecoded_place : ∀ f op, (bench .eom [0x00]).seq ≠ .field f op := by intro f op h; cases h

theorem test_wit_StepRunsTheCheck :
    (let s := bench .eom [0x76]; s.cmd = none ∧ s.seq.ctx = some .eom ∧ decode .eom s.fetchBytes = .error .tagMismatch) := by decide

theorem test_wit_HostRegistersKept :
    (nextOf (exec .msg (bench .messageLoop [0x76]))).isSome ∧ (nextOf (step (bench .messageLoop [0x76]))).isSome := by decide

/-- A running state that meets the log's and the closing invariants and takes a step. -/
theorem test_wit_StepKeepsFlags :
    (bench .eom [0x76]).LogInv ∧ (bench .eom [0x76]).FinishInv ∧ (nextOf (step (bench .eom [0x76]))).isSome :=
  ⟨⟨by decide, by decide, by decide⟩, ⟨rfl, fun h => absurd h (by decide)⟩, by decide⟩

/-- A running state that meets the cursor's invariant and takes a step. -/
theorem test_wit_StepKeepsCursor :
    (bench .messageLoop [0x76]).CursorInv ∧ (bench .messageLoop [0x76]).cmd = none ∧ (bench .messageLoop [0x76]).resting = false ∧
    (nextOf (step (bench .messageLoop [0x76]))).isSome :=
  ⟨⟨rfl, by decide, by decide, by decide, by decide⟩, rfl, rfl, by decide⟩

/-- A running state that meets the outcome's invariant, and one in Error. -/
theorem test_wit_StepKeepsOutcome : (bench .eom [0x76]).OutcomeInv ∧ ((bench .eom []).raiseFatal .sizeError).OutcomeInv :=
  ⟨⟨fun h => absurd h (by decide), fun _ => by decide⟩, ⟨fun _ => ⟨.sizeError, by decide⟩, fun h => absurd rfl h⟩⟩

/-- A state inside the fifteenth entry of a list. -/
theorem test_wit_StepKeepsEntryBound :
    let s := { entryBench (.field .leUnit .opt) [0x01] with entriesLeft := 15 };
    s.seq.legal = true ∧ s.EntryInv := by
  refine ⟨rfl, ⟨by decide, fun f op h hf => ?_, fun h => absurd h (by decide), fun f op h hf => by decide⟩⟩
  cases h
  exact absurd hf (by decide)

theorem test_wit_LogOnlyGrows :
    ¬ ((bench .eom [0x76]).cmd = some 0x01 ∧ (bench .eom [0x76]).resting = true) ∧ (nextOf (step (bench .eom [0x76]))).isSome ∧
    (let s := { bench .eom [0x00] with flags := { crcErr := true, warn := true, finished := true } };
      (nextOf (step s)).isSome ∧ s.flags.crcErr = true ∧ s.flags.warn = true ∧ s.flags.finished = true) := by decide

theorem test_wit_FatalCauses :
    (let s := bench .eom [0x76];
      s.cmd = none ∧ s.seq ≠ .error ∧ (nextOf (step s)).map (·.seq) = some .error) := by decide

theorem test_wit_NothingReadBeyondLen :
    (bench .eom [0x00]).sameBelowLen { bench .eom [0x00, 0x55] with len := 1 } := ⟨by decide, by decide⟩

theorem test_wit_OutputsNeverRead :
    (bench .eom [0x00]).withoutOutputs = { bench .eom [0x00] with result := .syntaxError, flags := { FlagReg.clear with warn := true } }.withoutOutputs := by
  decide

theorem test_wit_DecodeTerminates :
    (let s := { bench .idle [0x31] with cmd := some 0x01 }; s.cmd = some 0x01 ∧ s.resting = true) := by decide

/-- The host's acts on a ready block, at both ends of the Cursor's width, and on one that is not ready: running, or a CMD write waiting. -/
theorem test_wit_HostWrites :
    ((bench .idle []).resting = true ∧ (bench .idle []).cmd = none ∧ Cfg.fits (bench .idle []).cfg 5 = true ∧
      (bench .eom []).resting = false ∧ { bench .idle [] with cmd := some 0x01 }.cmd ≠ none) ∧
    (Cfg.fits { Cfg.default with cw := some 3 } 7 = true ∧ Cfg.fits { Cfg.default with cw := some 3 } 8 = false) ∧
    (Cfg.fits { Cfg.default with cw := some 1 } [(0x1b : Byte)].length = true ∧
      Cfg.fits { Cfg.default with cw := some 1 } [(0x1b : Byte), 0x1b].length = false) := by decide

/-- R74, R72: behind a pending DECODE neither another CMD write nor a write of LEN has an effect. -/
theorem test_host_behind_cmd :
    hostWriteCmd 0x02 { bench .idle [] with cmd := some 0x01 } = .next { bench .idle [] with cmd := some 0x01 } ∧
    hostWriteLen 1 { bench .idle [] with cmd := some 0x01 } = .refused .hostWriteWhileRunning ∧
    hostWriteCmd 0x03 (bench .idle []) = .next (bench .idle []) := ⟨rfl, rfl, rfl⟩

theorem test_wit_QueryFirstMatch :
    (let e := { ListEntry.fresh with objName := [1, 0, 1, 8, 0, 255] };
      let d := { Document.empty with lists := [{ ListResponse.fresh with entries := [ListEntry.fresh, e, { e with scaler := 1 }] }] };
      getElementByObis d #v[1, 0, 1, 8, 0, 255] = some e ∧ getElementByObis d #v[1, 0, 1, 8, 0, 254] = none) := by decide

theorem test_wit_UnitsAndEffectiveValue :
    ListEntry.fresh.unit = none ∧ ListEntry.fresh.value = .unset ∧ { ListEntry.fresh with value := .int 5 }.value = .int 5 := by decide

end Sys2Proof.Machine
end

/-! One step, by what CMD holds and by what the bytes at the sequencer's place decode to. -/

section
namespace Sys2Proof.Machine

open Sys2Proof

theorem step_of_cmd_none {s : State} (hcmd : s.cmd = none) : step s = s.sequence := by
  simp only [step, State.stepOnce, hcmd]

theorem step_of_cmd_some {s : State} {b : Byte} (hcmd : s.cmd = some b) : step s = s.acceptCmd b := by
  simp only [step, State.stepOnce, hcmd]

theorem sequence_of_decode_ok {s : State} {c : Ctx} {i : Instr} (hctx : s.seq.ctx = some c)
    (hdec : decode c s.fetchBytes = .ok i) : s.sequence = settleOut s.seq (exec i s) := by
  simp only [State.sequence, hctx, hdec]

theorem settleOut_of_ne_field {p : Position} (hp : ∀ f op, p ≠ .field f op) (o : Out) : settleOut p o = o := by
  cases p with
  | field f op => exact absurd rfl (hp f op)
  | _ => rfl

@[simp] theorem settleOut_field_next (f : Slot) (op : Op) (t : State) :
    settleOut (.field f op) (.next t) = .next (t.settle f op) := rfl

theorem acceptCmd_of_decode_ok {s : State} {b : Byte} {i : Instr} (hrest : s.resting = true)
    (hdec : decode .command [b] = .ok i) : s.acceptCmd b = exec i s.clearCmd := by
  simp only [State.acceptCmd, hrest, if_true, hdec]

/-- With no command pending, a step is the decoded instruction and what the sequencer adds around it at its place (R25, R95). -/
theorem step_of_decode_ok {s : State} {c : Ctx} {i : Instr} (hcmd : s.cmd = none) (hctx : s.seq.ctx = some c)
    (hdec : decode c s.fetchBytes = .ok i) : step s = settleOut s.seq (exec i s) :=
  (step_of_cmd_none hcmd).trans (sequence_of_decode_ok hctx hdec)

/-- Settles O45: the sequencer's half by its place (at a field or elsewhere), the command's half by the acceptance of CMD (R22). -/
theorem stepRunsDecoded : Obligations.StepRunsDecoded := by
  unfold Obligations.StepRunsDecoded
  intro s c i
  refine ⟨fun hcmd hctx hdec => ⟨fun hplace => ?_, fun f op t hfield hexec => ?_⟩, fun b hcmd hrest hdec => ?_⟩
  · calc step s = settleOut s.seq (exec i s) := step_of_decode_ok hcmd hctx hdec
      _ = exec i s := settleOut_of_ne_field hplace _
  · calc step s = settleOut s.seq (exec i s) := step_of_decode_ok hcmd hctx hdec
      _ = settleOut (.field f op) (.next t) := by rw [hfield, hexec]
      _ = .next (t.settle f op) := settleOut_field_next f op t
  · calc step s = s.acceptCmd b := step_of_cmd_some hcmd
      _ = exec i s.clearCmd := acceptCmd_of_decode_ok hrest hdec

end Sys2Proof.Machine
end

/-! What one step can do to the registers, said once (R25, R120, R180, R290). A routine write is any work inside a step short of a
fatal error; the step of the running sequencer is a case of `State.Moves`; every invariant is then read off these cases. -/

section
namespace Sys2Proof.Machine

open Sys2Proof

/-- The log `ev'` and the flags `fl'` come from `ev` and `fl` by events that are not fatal, have the severity of their code, and set
WARN and CRC_ERR as R27 says. -/
def Logged (ev : List Event) (fl : FlagReg) (ev' : List Event) (fl' : FlagReg) : Prop :=
  ∃ new, ev' = ev ++ new ∧ (∀ e ∈ new, e.severity = e.code.severity ∧ e.code.fatal = false) ∧
    fl'.warn = (fl.warn || new.any (·.severity == .warning)) ∧
    fl'.crcErr = (fl.crcErr || new.any (·.code == .eCrcMismatch))

theorem Logged.refl (ev : List Event) (fl : FlagReg) : Logged ev fl ev fl := ⟨[], by simp⟩

theorem Logged.trans {ev₁ ev₂ ev₃ : List Event} {fl₁ fl₂ fl₃ : FlagReg} (h : Logged ev₁ fl₁ ev₂ fl₂)
    (k : Logged ev₂ fl₂ ev₃ fl₃) : Logged ev₁ fl₁ ev₃ fl₃ := by
  obtain ⟨new, hev, hnew, hwarn, hcrc⟩ := h
  obtain ⟨new', hev', hnew', hwarn', hcrc'⟩ := k
  refine ⟨new ++ new', by rw [hev', hev, List.append_assoc], ?_, ?_, ?_⟩
  · intro e he
    exact (List.mem_append.1 he).elim (hnew e) (hnew' e)
  · rw [hwarn', hwarn, List.any_append, Bool.or_assoc]
  · rw [hcrc', hcrc, List.any_append, Bool.or_assoc]

/-- A routine write: what any part of a step does short of a fatal error, apart from the rows that find the start, begin a message, a
body or an entry, or verify the checksum. `counts`: the entries of every GetListResponse are as many as before. -/
structure State.Routine (s t : State) : Prop where
  log : Logged s.ev s.flags t.ev t.flags := by exact Logged.refl _ _
  result : t.result = s.result := by rfl
  len : t.len = s.len := by rfl
  forward : s.pos ≤ t.pos := by exact Nat.le_refl _
  inside : s.pos ≤ s.len → t.pos ≤ s.len := by exact id
  msgStart : t.env.msgStart = s.env.msgStart := by rfl
  crcFieldStart : t.env.crcFieldStart = s.env.crcFieldStart := by rfl
  finished : t.flags.finished = s.flags.finished := by rfl
  closed : t.doc.closed.isSome = s.doc.closed.isSome := by rfl
  counts : t.doc.lists.map (·.entries.length) = s.doc.lists.map (·.entries.length) := by rfl

theorem State.Routine.refl (s : State) : s.Routine s := {}

theorem State.Routine.trans {s t u : State} (h : s.Routine t) (k : t.Routine u) : s.Routine u where
  log := h.log.trans k.log
  result := k.result.trans h.result
  len := k.len.trans h.len
  forward := h.forward.trans k.forward
  inside hs := h.len ▸ k.inside (h.len.symm ▸ h.inside hs)
  msgStart := k.msgStart.trans h.msgStart
  crcFieldStart := k.crcFieldStart.trans h.crcFieldStart
  finished := k.finished.trans h.finished
  closed := k.closed.trans h.closed
  counts := k.counts.trans h.counts

/-! The register writes that are routine. -/

theorem State.routine_goto (s : State) (p : Position) : s.Routine (s.goto p) := {}

theorem State.routine_enter (s : State) (f : Slot) : s.Routine (s.enter f) := {}

theorem State.routine_return (s : State) (st : Status) (v : Val) : s.Routine (s.return st v) := {}

theorem State.routine_setRet (s : State) (r : Ret) : s.Routine { s with ret := r } := {}

theorem State.routine_setEntriesLeft (s : State) (n : Nat) : s.Routine (s.setEntriesLeft n) := {}

theorem State.routine_setEnv {s : State} {e : Env} (hmsg : e.msgStart = s.env.msgStart)
    (hcrc : e.crcFieldStart = s.env.crcFieldStart) : s.Routine (s.setEnv e) where
  msgStart := hmsg
  crcFieldStart := hcrc

theorem State.routine_advance {s : State} {n : Nat} (h : s.pos + n ≤ s.len) : s.Routine (s.advance n) where
  forward := Nat.le_add_right _ _
  inside _ := h

theorem State.routine_accept (s : State) (n : Nat) (v w : Val) : s.Routine (s.accept n v w) := by
  unfold State.accept
  split
  · exact (State.routine_advance ‹_›).trans (State.routine_return _ _ _)
  · exact s.routine_return _ _

theorem State.routine_skipAbsent (s : State) : s.Routine s.skipAbsent := by
  unfold State.skipAbsent
  split
  · exact (State.routine_advance ‹_›).trans (State.routine_return _ _ _)
  · exact s.routine_return _ _

theorem EventCode.nonfatal_of_warning {c : EventCode} (h : c.severity = .warning) : c.fatal = false := by
  cases c with
  | eCrcMismatch | fHeaderMismatch | fSyntaxError | fSizeError | fUnknownType => cases h
  | _ => rfl

theorem EventCode.ne_crc_of_warning {c : EventCode} (h : c.severity = .warning) : c ≠ .eCrcMismatch := by
  rintro rfl
  cases h

theorem State.routine_warn (s : State) {c : EventCode} (hc : c.severity = .warning) (f : Option FieldId) : s.Routine (s.warn c f) where
  log := ⟨[{ severity := .warning, code := c, field := f, loc := s.pos }],
    by simp [hc, EventCode.nonfatal_of_warning hc, EventCode.ne_crc_of_warning hc]⟩

theorem State.routine_compareCrc (s : State) (readOk : Bool) : s.Routine (s.compareCrc readOk) := by
  obtain ⟨-, -, heq⟩ | ⟨-, heq⟩ := s.compareCrc_cases readOk
  · rw [heq]; exact .refl s
  · rw [heq]
    exact { log := ⟨[{ severity := .error, code := .eCrcMismatch, field := some .crcField, loc := s.pos }],
      by simp [EventCode.severity, EventCode.fatal]⟩ }

/-! Writes to the record being filled. -/

theorem map_mapLast_eq {α β : Type} {g : α → β} {f : α → α} (h : ∀ x, g (f x) = g x) (l : List α) :
    (mapLast f l).map g = l.map g := by
  fun_induction mapLast f l with
  | case1 => rfl
  | case2 x => simp [h]
  | case3 x y rest ih => rw [List.map_cons, ih]; rfl

theorem State.routine_updateOpen (s : State) (g : OpenResponse → OpenResponse) : s.Routine (s.updateOpen g) := {}

theorem State.routine_updateClose (s : State) (g : CloseResponse → CloseResponse) : s.Routine (s.updateClose g) where
  closed := by simp

theorem State.routine_updateList (s : State) {g : ListResponse → ListResponse}
    (hg : ∀ r, (g r).entries.length = r.entries.length) : s.Routine (s.updateList g) where
  counts := map_mapLast_eq hg _

theorem State.routine_updateEntry (s : State) (g : ListEntry → ListEntry) : s.Routine (s.updateEntry g) :=
  s.routine_updateList fun r => mapLast_length g r.entries

/-! The sequencer's helpers at a field (R180 to R185, R200). -/

theorem Slot.arity_severity {f : Slot} {n : BitVec 8} {c : EventCode} (h : f.arity = some (n, c)) : c.severity = .warning := by
  cases f <;> simp [Slot.arity] at h <;> rw [← h.2] <;> rfl

theorem State.routine_checkArity (s : State) (f : Slot) (n : BitVec 8) : s.Routine (s.checkArity f n) := by
  unfold State.checkArity
  split
  · exact .refl s
  · split
    · exact .refl s
    · exact s.routine_warn (Slot.arity_severity ‹_›) none

theorem State.routine_warnField (s : State) (f : Slot) : s.Routine (s.warnField f) := by
  unfold State.warnField
  split
  · exact s.routine_warn (Slot.arity_severity ‹_›) none
  · exact s.routine_warn rfl _

theorem State.routine_warnEmpty (s : State) (bs : List Byte) {c : EventCode} (hc : c.severity = .warning) (f : FieldId) :
    s.Routine (s.warnEmpty bs c f) := by
  unfold State.warnEmpty
  split
  · exact s.routine_warn hc _
  · exact .refl s

theorem State.routine_store (s : State) (f : Slot) (op : Op) (v : Val) : s.Routine (s.store f op v) := by
  cases f with
  | transactionId | groupNo | abortOnError | msgType => exact State.routine_setEnv rfl rfl
  | openArity | closeArity | glArity => rw [State.store]; exact s.routine_checkArity _ _
  | openCodepage | openClientId | openReqField | openServerId | openRefTime | openVersion => exact s.routine_updateOpen _
  | closeSignature => exact s.routine_updateClose _
  | glClientId | glServerId | glListName | glSensorTime | glListSignature | glGatewayTime => exact s.routine_updateList fun _ => rfl
  | glValList => exact s.routine_setEntriesLeft _
  | leObjName | leStatus | leValTime | leUnit | leScaler | leValue | leValueSignature => exact s.routine_updateEntry _

theorem State.routine_missField (s : State) (f : Slot) : s.Routine (s.missField f) := by
  refine (s.routine_warnField f).trans ?_
  cases f with
  | transactionId | groupNo | abortOnError | msgType => exact State.routine_setEnv rfl rfl
  | glValList => exact State.routine_setEntriesLeft _ _
  | _ => exact .refl _

theorem State.routine_nextEntry (s : State) : s.Routine s.nextEntry := by
  unfold State.nextEntry
  split
  · exact s.routine_enter _
  · exact s.routine_goto _

theorem State.routine_nextField (s : State) (f : Slot) : s.Routine (s.nextField f) := by
  cases f with
  | openReqField | openServerId | glServerId => exact (s.routine_warnEmpty _ rfl _).trans (State.routine_enter _ _)
  | glValList => exact s.routine_nextEntry
  | leValueSignature => exact (s.routine_setEntriesLeft _).trans (State.routine_nextEntry _)
  | abortOnError | msgType | openVersion | closeSignature | glGatewayTime => exact s.routine_goto _
  | _ => exact s.routine_enter _

/-! The value list's counter (R38, R185): only the value list itself and the end of an entry write it. -/

theorem State.checkArity_entriesLeft (s : State) (f : Slot) (n : BitVec 8) : (s.checkArity f n).entriesLeft = s.entriesLeft := by
  unfold State.checkArity
  split
  · rfl
  · split <;> rfl

theorem State.warnField_entriesLeft (s : State) (f : Slot) : (s.warnField f).entriesLeft = s.entriesLeft := by
  unfold State.warnField
  split <;> rfl

theorem State.store_entriesLeft (s : State) {f : Slot} (hf : f ≠ .glValList) (op : Op) (v : Val) :
    (s.store f op v).entriesLeft = s.entriesLeft := by
  cases f with
  | openArity | closeArity | glArity => exact s.checkArity_entriesLeft _ _
  | glValList => exact absurd rfl hf
  | _ => rfl

theorem State.missField_entriesLeft (s : State) {f : Slot} (hf : f ≠ .glValList) : (s.missField f).entriesLeft = s.entriesLeft := by
  cases f with
  | glValList => exact absurd rfl hf
  | _ => exact s.warnField_entriesLeft _

/-- The field `f` is done and its line of the rule left behind in `u`. At the value list the counter is then 0 after a failed read, and what
the reader returned after a successful one (R185). -/
structure State.Served (s : State) (f : Slot) (u : State) : Prop where
  routine : s.Routine u
  left : f ≠ .glValList → u.entriesLeft = s.entriesLeft
  count : f = .glValList → s.ret.status ≠ .absent → (s.ret.status = .ok → s.ret.val.byteOf.toNat ≤ Config.capEntries) →
    u.entriesLeft ≤ Config.capEntries

/-- A reader that has returned at a field is the fatal error, or the field is done (R180, R182). -/
theorem State.finish_cases (s : State) (f : Slot) (op : Op) :
    (∃ u, s.Routine u ∧ s.finish f op = u.raiseFatal .sizeError) ∨ (∃ u, s.Served f u ∧ s.finish f op = u.nextField f) := by
  have hd : f = .glValList → (if f.dispatches then dispatched op s.ret else s.ret) = s.ret := by rintro rfl; rfl
  unfold State.finish
  generalize (if f.dispatches then dispatched op s.ret else s.ret) = r at hd
  have hr := s.routine_setRet r
  dsimp only
  split
  · exact .inl ⟨_, hr, rfl⟩
  · next hst =>
    exact .inr ⟨_, ⟨hr, fun _ => rfl, fun hf hne => absurd (hd hf ▸ hst) hne⟩, rfl⟩
  · exact .inr ⟨_, ⟨hr.trans (State.routine_missField _ f), State.missField_entriesLeft _,
      fun hf _ _ => by subst hf; exact Nat.zero_le _⟩, rfl⟩
  · exact .inr ⟨_, ⟨hr.trans (State.routine_missField _ f), State.missField_entriesLeft _,
      fun hf _ _ => by subst hf; exact Nat.zero_le _⟩, rfl⟩
  · next hst =>
    refine .inr ⟨_, ⟨hr.trans (State.routine_store _ f op r.val), fun hf => State.store_entriesLeft _ hf op r.val, ?_⟩, rfl⟩
    intro hf _ hcount
    rw [← hd hf] at hcount
    subst hf
    exact hcount hst

end Sys2Proof.Machine
end

section
namespace Sys2Proof.Machine

open Sys2Proof

/-! What the bytes at a field decode to: a row of the operation's own context. -/

theorem decodeByte_ok {mk : Byte → Instr} {bs : List Byte} {i : Instr} (h : decodeByte mk bs = .ok i) : ∃ b, i = mk b := by
  cases bs with
  | nil => cases h
  | cons b rest => exact ⟨b, (Except.ok.inj h).symm⟩

theorem decodeNibble_ok {n : BitVec 4} {mk : BitVec 4 → Instr} {bs : List Byte} {i : Instr} (h : decodeNibble n mk bs = .ok i) :
    ∃ l, i = mk l := by
  cases bs with
  | nil => cases h
  | cons b rest =>
    simp only [decodeNibble] at h
    split at h
    · exact ⟨lo b, (Except.ok.inj h).symm⟩
    · cases h

theorem readInto_ok {α : Type} {mk : α → Instr} {r : Read α} {i : Instr} (h : readInto mk r = .ok i) : ∃ v, i = mk v := by
  cases r with
  | error e => cases h
  | ok p => exact ⟨p.1, (Except.ok.inj h).symm⟩

theorem decodeOpt_ok {bs : List Byte} {i : Instr} (h : decodeOpt bs = .ok i) : i = .absent ∨ ∃ b, i = .opt b := by
  cases bs with
  | nil => cases h
  | cons b rest =>
    simp only [decodeOpt] at h
    split at h
    · exact .inl (Except.ok.inj h).symm
    · exact .inr ⟨b, (Except.ok.inj h).symm⟩

theorem decodePattern_ok {pat bs : List Byte} {i j : Instr} (h : decodePattern pat i bs = .ok j) : j = i := by
  unfold decodePattern at h
  split at h
  · cases h
  · split at h
    · exact (Except.ok.inj h).symm
    · cases h

theorem decode_lex_ctx {op : Op} {bs : List Byte} {i : Instr} (h : decode (.lex op) bs = .ok i) : i.ctx = .lex op := by
  cases op with
  | opt => obtain rfl | ⟨b, rfl⟩ := decodeOpt_ok h <;> rfl
  | ostrLen | ostrAny | listLen | value | peek | isOstr => obtain ⟨b, rfl⟩ := decodeByte_ok h; rfl
  | unsigned | integer | status => obtain ⟨l, rfl⟩ := decodeNibble_ok h; rfl
  | time => obtain ⟨v, rfl⟩ := readInto_ok h; cases v <;> rfl
  | _ => obtain ⟨v, rfl⟩ := readInto_ok h; rfl

theorem decode_lex_nil (op : Op) : decode (.lex op) [] = .error .short := by cases op <;> rfl

/-- What decodes at a field has a byte to read. -/
theorem State.inside_of_decode_lex {s : State} {op : Op} {i : Instr} (h : decode (.lex op) s.window = .ok i) : s.pos < s.len := by
  by_contra hout
  rw [State.window_nil (by omega), decode_lex_nil] at h
  cases h

/-! What a row of the Primitive Lexer does and returns (R120). -/

/-- The operations that can follow `op` at the field `f` before the field is done: the reader of an optional field, the reader that a
dispatcher selects, the second part of a composed reader (R125, R127, R137 to R141, R146, R183, R201). -/
def Slot.successors (f : Slot) : Op → List Op
  | .opt => [f.reader]
  | .ostrLen => [.ostr]
  | .ostrAny => [.ostrLen, .xostr]
  | .unsigned | .status => [.u8, .u16, .u32, .u64]
  | .integer => [.i8, .i16, .i32, .i64]
  | .listLen => [.list]
  | .value => [.ostrLen, .integer, .unsigned]
  | .peek => [.isOstr]
  | .isOstr => [.time]
  | .ostr | .xostr | .u8 | .u16 | .u32 | .u64 | .i8 | .i16 | .i32 | .i64 | .list | .time => []

/-- What the pair returned by the operation `op` at the field `f` can be, in `s` after it: a dispatcher selects one of the operation's
successors, only the optional-field convention answers absent, a list has at most 15 elements, and PEEK saw a byte. -/
structure State.Returned (s : State) (f : Slot) (op : Op) : Prop where
  selects : ∀ op', s.ret.val = .select op' → op' ∈ f.successors op
  absent : s.ret.status = .absent → op = .opt
  count : op = .list → s.ret.status = .ok → s.ret.val.byteOf.toNat ≤ Config.capEntries
  peeked : op = .peek → s.ret.status = .ok → s.pos < s.len

/-- The row that the operation `op` ran at the field `f` has left `u`. -/
structure State.Ran (s : State) (f : Slot) (op : Op) (u : State) : Prop where
  routine : s.Routine u
  left : u.entriesLeft = s.entriesLeft
  returned : u.Returned f op

theorem State.ran_return {s : State} {f : Slot} {op : Op} {st : Status} {v : Val}
    (hsel : ∀ op', v = .select op' → op' ∈ f.successors op) (habs : st ≠ .absent) (hlist : op ≠ .list)
    (hpeek : op = .peek → s.pos < s.len) : s.Ran f op (s.return st v) where
  routine := s.routine_return st v
  left := rfl
  returned := ⟨hsel, fun h => absurd h habs, fun h => absurd h hlist, fun h _ => hpeek h⟩

theorem State.accept_entriesLeft (s : State) (n : Nat) (v w : Val) : (s.accept n v w).entriesLeft = s.entriesLeft := by
  unfold State.accept
  split <;> rfl

/-- A reader that accepts a primitive or finds it cut selects nothing and is not absent. -/
theorem State.ran_accept {s : State} {f : Slot} {op : Op} {n : Nat} {v w : Val} (hv : ∀ op', v ≠ .select op')
    (hw : ∀ op', w ≠ .select op') (hlist : op = .list → v.byteOf.toNat ≤ Config.capEntries) (hpeek : op ≠ .peek) :
    s.Ran f op (s.accept n v w) where
  routine := s.routine_accept n v w
  left := s.accept_entriesLeft n v w
  returned := by
    unfold State.accept
    split
    · exact ⟨fun op' h => absurd h (hv op'), nofun, fun h _ => hlist h, fun h => absurd h hpeek⟩
    · exact ⟨fun op' h => absurd h (hw op'), nofun, nofun, fun h => absurd h hpeek⟩

theorem State.ran_skipAbsent (s : State) (f : Slot) : s.Ran f .opt s.skipAbsent where
  routine := s.routine_skipAbsent
  left := by unfold State.skipAbsent; split <;> rfl
  returned := by unfold State.skipAbsent; split <;> exact ⟨nofun, fun _ => rfl, nofun, nofun⟩

theorem unsignedReader_mem {w : BitVec 4} {op : Op} (h : unsignedReader w = some op) : op ∈ [Op.u8, .u16, .u32, .u64] := by
  unfold unsignedReader at h
  grind

theorem integerReader_mem {w : BitVec 4} {op : Op} (h : integerReader w = some op) : op ∈ [Op.i8, .i16, .i32, .i64] := by
  unfold integerReader at h
  grind

theorem State.ran_selectReader {s : State} {f : Slot} {op : Op} {r : Option Op} (hr : ∀ op', r = some op' → op' ∈ f.successors op)
    (hlist : op ≠ .list) (hpeek : op ≠ .peek) : s.Ran f op (s.selectReader r) := by
  cases r with
  | none => exact State.ran_return nofun nofun hlist fun h => absurd h hpeek
  | some o => exact State.ran_return (fun op' h => hr op' (by cases h; rfl)) nofun hlist fun h => absurd h hpeek

theorem list_count_le (n : BitVec 4) : (n.zeroExtend 8).toNat ≤ Config.capEntries := by
  have := n.isLt
  simp [Config.capEntries]
  omega

/-- A row of the operation's context, run at a field with a byte to read, does what `State.Ran` says (R120 to R122). -/
theorem exec_lex_ran {s : State} {f : Slot} {op : Op} {i : Instr} (hseq : s.seq = .field f op) (hctx : i.ctx = .lex op)
    (hin : s.pos < s.len) : ∃ u, exec i s = .next u ∧ s.Ran f op u := by
  cases i with
  | absent => cases hctx; exact ⟨_, rfl, s.ran_skipAbsent f⟩
  | ostr | u8 | u16 | u32 | u64 | i8 | i16 | i32 | i64 | timeSec | timeTs | timeLocal =>
    cases hctx; exact ⟨_, rfl, State.ran_accept nofun nofun nofun nofun⟩
  | xostr ns t p =>
    cases hctx
    refine ⟨_, rfl, ?_⟩
    split
    · exact State.ran_return nofun nofun nofun nofun
    · exact State.ran_accept nofun nofun nofun nofun
  | list n => cases hctx; exact ⟨_, rfl, State.ran_accept nofun nofun (fun _ => list_count_le n) nofun⟩
  | value b =>
    cases hctx
    refine ⟨_, rfl, ?_⟩
    split_ifs
    · exact State.ran_return (by rintro _ ⟨⟩; simp [Slot.successors]) nofun nofun nofun
    · exact State.ran_return (by rintro _ ⟨⟩; simp [Slot.successors]) nofun nofun nofun
    · exact State.ran_return (by rintro _ ⟨⟩; simp [Slot.successors]) nofun nofun nofun
    · exact ⟨(s.routine_warn rfl _).trans (State.routine_return _ _ _), rfl, ⟨nofun, nofun, nofun, nofun⟩⟩
  | rdOstrAny b =>
    cases hctx
    refine ⟨_, rfl, ?_⟩
    split_ifs
    · exact State.ran_return (by rintro _ ⟨⟩; simp [Slot.successors]) nofun nofun nofun
    · exact State.ran_return (by rintro _ ⟨⟩; simp [Slot.successors]) nofun nofun nofun
    · exact State.ran_return nofun nofun nofun nofun
  | rdUnsigned w | rdStatus w => cases hctx; exact ⟨_, rfl, State.ran_selectReader (fun _ => unsignedReader_mem) nofun nofun⟩
  | rdInteger w => cases hctx; exact ⟨_, rfl, State.ran_selectReader (fun _ => integerReader_mem) nofun nofun⟩
  | isOstr | ostrLen | listLen => cases hctx; exact ⟨_, rfl, State.ran_return nofun nofun nofun nofun⟩
  | peek b => cases hctx; exact ⟨_, rfl, State.ran_return nofun nofun nofun fun _ => hin⟩
  | opt b =>
    cases hctx
    simp only [exec, execOpt, hseq, Position.reader]
    split
    · exact ⟨_, rfl, s.ran_skipAbsent f⟩
    · exact ⟨_, rfl, State.ran_return (by rintro _ ⟨⟩; exact List.mem_singleton_self _) nofun nofun nofun⟩
  | _ => cases hctx

theorem sentinelOf_ne_select (op op' : Op) : sentinelOf op ≠ .select op' := by cases op <;> nofun

theorem sentinelAt_ne_select (f : Slot) (op op' : Op) : sentinelAt f op ≠ .select op' := by
  unfold sentinelAt
  split <;> exact sentinelOf_ne_select _ _

/-- A field whose bytes do not decode: nothing is consumed and the reader has failed (R122). -/
theorem State.ran_unread (s : State) (f : Slot) (op : Op) (e : ReadFail) : s.Ran f op (s.return (failStatus e) (sentinelAt f op)) where
  routine := s.routine_return _ _
  left := rfl
  returned := by
    have hok : failStatus e ≠ .ok := by cases e <;> nofun
    have habs : failStatus e ≠ .absent := by cases e <;> nofun
    exact ⟨fun op' h => absurd h (sentinelAt_ne_select f op op'), fun h => absurd h habs,
      fun _ h => absurd h hok, fun _ h => absurd h hok⟩

/-! The step at a field: the row, then what the sequencer does with its answer. -/

theorem sequence_of_decode_error {s : State} {c : Ctx} {e : ReadFail} (hctx : s.seq.ctx = some c)
    (hdec : decode c s.fetchBytes = .error e) : s.sequence = s.unread e := by
  simp only [State.sequence, hctx, hdec]

/-- A step at a field runs the operation there and settles what it returned. -/
theorem sequence_field {s : State} {f : Slot} {op : Op} (hseq : s.seq = .field f op) :
    ∃ u, s.Ran f op u ∧ s.sequence = .next (u.settle f op) := by
  have hctx : s.seq.ctx = some (.lex op) := by rw [hseq]; rfl
  have hbytes : s.fetchBytes = s.window := by simp only [State.fetchBytes, hseq]
  cases hdec : decode (.lex op) s.fetchBytes with
  | ok i =>
    obtain ⟨u, hexec, hran⟩ := exec_lex_ran hseq (decode_lex_ctx hdec) (State.inside_of_decode_lex (hbytes ▸ hdec))
    exact ⟨u, hran, by rw [sequence_of_decode_ok hctx hdec, hexec, hseq, settleOut_field_next]⟩
  | error e => exact ⟨_, s.ran_unread f op e, by rw [sequence_of_decode_error hctx hdec, State.unread, hseq]⟩

/-- What the sequencer makes of the pair that `op` returned at the field `f` in `s`: the field's next operation, the fatal error of an
exhausted buffer, or the next line of the field's rule, with the counter as R185 has it. -/
inductive State.Settles (s : State) (f : Slot) (op : Op) : State → Prop
  | goes {t : State} (op' : Op) (next : op' ∈ f.successors op) (routine : s.Routine t) (left : t.entriesLeft = s.entriesLeft)
      (place : t.seq = .field f op') : s.Settles f op t
  | cut {u : State} (routine : s.Routine u) : s.Settles f op (u.raiseFatal .sizeError)
  | done {u : State} (routine : s.Routine u) (left : f ≠ .glValList → u.entriesLeft = s.entriesLeft)
      (count : f = .glValList → op = .listLen ∨ op = .list → u.entriesLeft ≤ Config.capEntries) : s.Settles f op (u.nextField f)

/-- What settles after a routine write settles before it. -/
theorem State.Settles.of_routine {s u t : State} {f : Slot} {op : Op} (h : u.Settles f op t) (hr : s.Routine u)
    (hl : u.entriesLeft = s.entriesLeft) : s.Settles f op t := by
  cases h with
  | goes op' next routine left place => exact .goes op' next (hr.trans routine) (left.trans hl) place
  | cut routine => exact .cut (hr.trans routine)
  | done routine left count => exact .done (hr.trans routine) (fun hf => (left hf).trans hl) count

theorem State.settles_goto (s : State) {f : Slot} {op op' : Op} (h : op' ∈ f.successors op) :
    s.Settles f op (s.goto (.field f op')) :=
  .goes op' h (s.routine_goto _) rfl rfl

/-- A field that is done with neither a store nor a miss; the value list never is. -/
theorem State.settles_nextField {s u : State} {f : Slot} {op : Op} (hr : s.Routine u) (hl : u.entriesLeft = s.entriesLeft)
    (hop : ¬ (op = .listLen ∨ op = .list)) : s.Settles f op (u.nextField f) :=
  .done hr (fun _ => hl) fun _ h => absurd h hop

theorem State.settles_finish {s : State} {f : Slot} {op : Op} (h : s.Returned f op) (hlen : op = .listLen → s.ret.status ≠ .ok) :
    s.Settles f op (s.finish f op) := by
  obtain ⟨u, hu, heq⟩ | ⟨u, hu, heq⟩ := s.finish_cases f op
  · rw [heq]; exact .cut hu
  · rw [heq]
    refine .done hu.routine hu.left fun hf hop => hu.count hf ?_ fun hok => ?_
    · intro habs
      rcases hop with rfl | rfl <;> exact nomatch h.absent habs
    · exact hop.elim (fun hl => absurd hok (hlen hl)) fun hl => h.count hl hok

/-- A composed reader's first part that found another tag fails as the whole reader does (R125, R140). -/
theorem State.settles_mismatch (s : State) {f : Slot} {op : Op} {v : Val} (hv : ∀ op', v ≠ .select op') :
    s.Settles f op ((s.return .tagMismatch v).finish f op) :=
  State.Settles.of_routine (State.settles_finish ⟨fun op' h => absurd h (hv op'), nofun, nofun, nofun⟩ nofun) (s.routine_return _ _) rfl

theorem State.settles_follow {s : State} {f : Slot} {op : Op} (h : s.Returned f op) (hop : ¬ (op = .listLen ∨ op = .list)) :
    s.Settles f op (s.follow f) := by
  unfold State.follow
  split
  · exact s.settles_goto (h.selects _ ‹_›)
  all_goals exact State.settles_nextField (.refl s) rfl hop

theorem State.settles_settle {s : State} {f : Slot} {op : Op} (h : s.Returned f op) : s.Settles f op (s.settle f op) := by
  unfold State.settle
  split
  · next hok =>
    cases op with
    | ostrLen =>
      simp only [State.afterOstrLen]
      split
      · split
        · exact s.settles_mismatch nofun
        · exact s.settles_goto (List.mem_singleton_self _)
      all_goals exact State.settles_finish h nofun
    | listLen =>
      simp only [State.afterListLen]
      split
      · exact s.settles_mismatch nofun
      · exact s.settles_goto (List.mem_singleton_self _)
    | peek =>
      simp only [State.afterPeek]
      split
      · exact State.settles_nextField (State.routine_advance (h.peeked rfl hok)) rfl (by decide)
      · exact s.settles_goto (List.mem_singleton_self _)
    | isOstr =>
      simp only [State.afterIsOstr]
      split
      · exact State.settles_nextField (s.routine_warn rfl _) rfl (by decide)
      · exact s.settles_goto (List.mem_singleton_self _)
    | opt | ostrAny | unsigned | integer | status | value => exact State.settles_follow h (by decide)
    | ostr | xostr | u8 | u16 | u32 | u64 | i8 | i16 | i32 | i64 | list | time => exact State.settles_finish h nofun
  · next hno => exact State.settles_finish h fun _ => hno

end Sys2Proof.Machine
end

section
namespace Sys2Proof.Machine

open Sys2Proof

/-! The places outside a field: which row the step there runs. -/

/-- A place whose context is one fixed pattern runs that pattern's row, whatever the bytes are. -/
theorem sequence_of_pattern {s : State} {c : Ctx} {pat : List Byte} {i : Instr} (hctx : s.seq.ctx = some c)
    (hpat : ∀ bs, decode c bs = decodePattern pat i bs) (hplace : ∀ f op, s.seq ≠ .field f op)
    (hunread : ∀ e, s.unread e = exec i s) : s.sequence = exec i s := by
  cases hdec : decode c s.fetchBytes with
  | ok j =>
    have hj : j = i := decodePattern_ok (hpat _ ▸ hdec)
    rw [sequence_of_decode_ok hctx hdec, settleOut_of_ne_field hplace, hj]
  | error e => rw [sequence_of_decode_error hctx hdec, hunread e]

/-- The row of a place whose context is one fixed pattern. -/
def Position.row : Position → Option Instr
  | .seekStart => some .start
  | .verifyHeader => some .ver
  | .messageLoop => some .msg
  | .bodyList => some .bodyList
  | .entryHeader => some .entry
  | .eom => some .eom
  | .endEscape => some .esc
  | .endByte => some .endByte
  | .idle | .field _ _ | .dispatch | .crcField | .seekEnd | .done | .error => none

theorem sequence_row {s : State} {i : Instr} (h : s.seq.row = some i) : s.sequence = exec i s := by
  cases hseq : s.seq with
  | seekStart | verifyHeader | messageLoop | bodyList | entryHeader | eom | endEscape | endByte =>
    rw [hseq] at h
    obtain rfl := Option.some.inj h
    exact sequence_of_pattern (by rw [hseq]; rfl) (fun _ => rfl) (by simp [hseq]) fun _ => by rw [State.unread, hseq]
  | _ => rw [hseq] at h; cases h

theorem sequence_seekEnd {s : State} (h : s.seq = .seekEnd) : s.sequence = .next (s.goto .done) := by
  simp [State.sequence, h, Position.ctx]

/-- At the message type the step runs one of the four rows of R232. -/
theorem sequence_dispatch {s : State} (h : s.seq = .dispatch) :
    ∃ t, s.sequence = exec (dispatchType t) s ∨ s.sequence = execUnknownType t s := by
  have hctx : s.seq.ctx = some .messageType := by rw [h]; rfl
  cases hdec : decode .messageType s.fetchBytes with
  | ok i =>
    obtain ⟨v, rfl⟩ := readInto_ok hdec
    exact ⟨_, .inl (by rw [sequence_of_decode_ok hctx hdec, settleOut_of_ne_field (by simp [h])])⟩
  | error e => exact ⟨s.env.msgType, .inr (by rw [sequence_of_decode_error hctx hdec, State.unread, h]; rfl)⟩

/-- At the CRC field the step compares what was read, or answers what R233 says of a field that could not be read. -/
theorem sequence_crcField {s : State} (h : s.seq = .crcField) :
    (∃ c, s.sequence = execCrc c s) ∨ ∃ e, s.sequence = .next (s.crcUnread e) := by
  have hctx : s.seq.ctx = some .crcField := by rw [h]; rfl
  cases hdec : decode .crcField s.fetchBytes with
  | ok i =>
    obtain ⟨v, rfl⟩ := readInto_ok hdec
    exact .inl ⟨_, by rw [sequence_of_decode_ok hctx hdec, settleOut_of_ne_field (by simp [h])]; rfl⟩
  | error e => exact .inr ⟨e, by rw [sequence_of_decode_error hctx hdec, State.unread, h]⟩

theorem sequence_resting {s : State} (h : s.resting = true) : s.sequence = .next s := by
  cases hseq : s.seq <;> simp_all [State.resting, Position.resting, State.sequence, Position.ctx]

/-! One step of the running sequencer. -/

/-- Where a routine step that leaves the place of a check leads (R221 to R235); the closing sequence behind EOM apart, which needs
FINISHED. -/
def Position.exits : Position → List Position
  | .verifyHeader => [.messageLoop]
  | .messageLoop => [.seekEnd]
  | .bodyList => [.field .msgType .u16]
  | .dispatch => [.field .openArity .listLen]
  | .eom => [.messageLoop]
  | .endEscape => [.endByte]
  | .endByte => [.messageLoop]
  | .seekEnd => [.done]
  | .idle | .seekStart | .field _ _ | .entryHeader | .crcField | .done | .error => []

/-- A new entry in the list being filled (R200). -/
def State.addEntry (s : State) : State := s.updateList fun r => { r with entries := r.entries ++ [ListEntry.fresh] }

/-- The step of the running sequencer in `s`, by what it does. -/
inductive State.Moves (s : State) : State → Prop
  /-- a check failed, or the buffer is exhausted (R290) -/
  | fatal {u : State} (c : FatalCode) (routine : s.Routine u) : s.Moves (u.raiseFatal c)
  /-- a check passed or drew its warning -/
  | check {t : State} (routine : s.Routine t) (place : t.seq ∈ s.seq.exits) : s.Moves t
  /-- the finishing message's EOM is passed (R234) -/
  | closing {t : State} (place : s.seq = .eom) (finished : s.flags.finished = true) (routine : s.Routine t)
      (next : t.seq = .endEscape) : s.Moves t
  /-- the start of the transmission is found (R221, R222) -/
  | found (k : Nat) (place : s.seq = .seekStart) (inside : k ≤ s.len) : s.Moves ({ s with pos := k }.goto .verifyHeader)
  /-- there is no start (R221, R222) -/
  | lost (place : s.seq = .seekStart) : s.Moves ({ s with pos := s.len }.raiseFatal .sizeError)
  /-- a message begins (R225) -/
  | message (place : s.seq = .messageLoop) (inside : s.pos < s.len) : s.Moves s.beginMessage
  /-- a field goes on with another operation -/
  | goes {t : State} {f : Slot} {op op' : Op} (place : s.seq = .field f op) (next : op' ∈ f.successors op) (routine : s.Routine t)
      (left : t.entriesLeft = s.entriesLeft) (next_eq : t.seq = .field f op') : s.Moves t
  /-- a field is done -/
  | done {u : State} {f : Slot} {op : Op} (place : s.seq = .field f op) (routine : s.Routine u)
      (left : f ≠ .glValList → u.entriesLeft = s.entriesLeft)
      (count : f = .glValList → op = .listLen ∨ op = .list → u.entriesLeft ≤ Config.capEntries) : s.Moves (u.nextField f)
  /-- the finishing message's body begins (R232) -/
  | close (place : s.seq = .dispatch) :
      s.Moves ((s.setFinished.setDoc { s.doc with closed := some CloseResponse.fresh }).enter .closeArity)
  /-- a list's body begins (R232) -/
  | list (place : s.seq = .dispatch) : s.Moves ((s.setDoc { s.doc with lists := s.doc.lists ++ [ListResponse.fresh] }).enter .glArity)
  /-- an entry begins (R200) -/
  | entry {t : State} (place : s.seq = .entryHeader) (routine : s.addEntry.Routine t) (left : t.entriesLeft = s.entriesLeft)
      (next : t.seq = .field .leObjName .ostrLen) : s.Moves t
  /-- an entry begins where the buffer ends (R200) -/
  | entryCut (place : s.seq = .entryHeader) : s.Moves (s.addEntry.raiseFatal .sizeError)
  /-- the checksum is compared (R233, R163) -/
  | crc {t : State} {e : Env} (place : s.seq = .crcField) (msgStart : e.msgStart = s.env.msgStart) (fieldStart : e.crcFieldStart = s.pos)
      (routine : (s.setEnv e).Routine t) (next : t.seq = .eom) : s.Moves t
  /-- the buffer ends before the CRC field does (R233) -/
  | crcCut (place : s.seq = .crcField) : s.Moves s.crcCut

/-- A governed check that failed moves to one of its place's exits or is fatal (R282). -/
theorem State.moves_governed {s u : State} {k : Check} {c : FatalCode} {w : EventCode} {next : State → State} (hr : s.Routine u)
    (hw : w.severity = .warning) (hnext : ∀ v, s.Routine v → s.Moves (next v)) : s.Moves (u.governed k c w next) := by
  obtain ⟨-, heq⟩ | ⟨-, heq⟩ := u.governed_cases k c w next
  · rw [heq]; exact .fatal c hr
  · rw [heq]; exact hnext _ (hr.trans (u.routine_warn hw none))

/-- A check that leads straight to the place `p`. -/
theorem State.moves_goto {s u : State} {p : Position} (hr : s.Routine u) (hp : p ∈ s.seq.exits) : s.Moves (u.goto p) :=
  .check (hr.trans (u.routine_goto p)) hp

theorem rdList_inside {s : State} {r : BitVec 4 × List Byte} (h : rdList s.window = .ok r) : s.pos + 1 ≤ s.len := by
  by_contra hout
  rw [State.window_nil (by omega)] at h
  cases h

theorem findPattern_le {pat bs : List Byte} {k : Nat} (h : findPattern pat bs = some k) : k ≤ bs.length := by
  induction bs generalizing k with
  | nil => simp only [findPattern] at h; grind
  | cons b bs ih =>
    simp only [findPattern] at h
    split at h
    · cases h; exact Nat.zero_le _
    · obtain ⟨j, hj, rfl⟩ := Option.map_eq_some_iff.1 h
      exact Nat.succ_le_succ (ih hj)

theorem execStart_moves {s t : State} (hseq : s.seq = .seekStart) (h : execStart s = .next t) : s.Moves t := by
  cases h
  split
  · exact .lost hseq
  · next k hk => exact .found k hseq (by simpa [State.bytesFrom_length] using findPattern_le hk)

theorem execVer_moves {s t : State} (hseq : s.seq = .verifyHeader) (h : execVer s = .next t) : s.Moves t := by
  cases h
  split_ifs with hlen
  · exact .fatal _ (.refl s)
  · exact State.moves_goto (State.routine_advance (by omega)) (by simp [hseq, Position.exits])
  · exact .fatal _ (.refl s)

theorem execMsg_moves {s t : State} (hseq : s.seq = .messageLoop) (h : execMsg s = .next t) : s.Moves t := by
  have hexit : Position.seekEnd ∈ s.seq.exits := by simp [hseq, Position.exits]
  cases h
  split_ifs with hfin hmark
  · exact State.moves_goto (.refl s) hexit
  · exact .message hseq hmark.1
  · exact State.moves_goto (.refl s) hexit

theorem execBodyList_moves {s t : State} (hseq : s.seq = .bodyList) (h : execBodyList s = .next t) : s.Moves t := by
  have hexit : ∀ v, s.Routine v → s.Moves (v.enter .msgType) := fun v hv =>
    .check (hv.trans (v.routine_enter _)) (by simp [hseq, Position.exits, Slot.start, Slot.optional, Slot.reader])
  cases h
  split
  · exact .fatal _ (.refl s)
  · exact State.moves_governed (.refl s) rfl hexit
  · exact State.moves_governed (.refl s) rfl hexit
  · next n rest hread =>
    have hadv := State.routine_advance (rdList_inside hread)
    split
    · exact hexit _ hadv
    · exact State.moves_governed hadv rfl hexit

theorem State.afterEom_moves {s u : State} (hseq : s.seq = .eom) (hr : s.Routine u) : s.Moves u.afterEom := by
  unfold State.afterEom
  split
  · next hfin => exact .closing hseq (hr.finished ▸ hfin) (hr.trans (u.routine_goto _)) rfl
  · exact State.moves_goto hr (by simp [hseq, Position.exits])

theorem execEom_moves {s t : State} (hseq : s.seq = .eom) (h : execEom s = .next t) : s.Moves t := by
  cases h
  split_ifs with hlen
  · exact .fatal _ (.refl s)
  · exact State.afterEom_moves hseq (State.routine_advance (by omega))
  · exact State.moves_governed (.refl s) rfl fun _ => State.afterEom_moves hseq

theorem execEsc_moves {s t : State} (hseq : s.seq = .endEscape) (h : execEsc s = .next t) : s.Moves t := by
  have hexit : Position.endByte ∈ s.seq.exits := by simp [hseq, Position.exits]
  cases h
  split_ifs with hlen
  · exact .fatal _ (.refl s)
  · exact State.moves_goto (State.routine_advance (by omega)) hexit
  · exact State.moves_governed (.refl s) rfl fun _ hv => State.moves_goto hv hexit

theorem execEndByte_moves {s t : State} (hseq : s.seq = .endByte) (h : execEndByte s = .next t) : s.Moves t := by
  have hexit : Position.messageLoop ∈ s.seq.exits := by simp [hseq, Position.exits]
  cases h
  split_ifs with hlen
  · exact .fatal _ (.refl s)
  · exact State.moves_goto (State.routine_advance (by omega)) hexit
  · exact State.moves_governed (.refl s) rfl fun _ hv => State.moves_goto hv hexit

theorem execEntry_moves {s t : State} (hseq : s.seq = .entryHeader) (h : execEntry s = .next t) : s.Moves t := by
  have hname : ∀ v, s.addEntry.Routine v → v.entriesLeft = s.entriesLeft → s.Moves (v.enter .leObjName) := fun v hv hl =>
    .entry hseq (hv.trans (v.routine_enter _)) hl rfl
  have hwarn : ∀ v, s.addEntry.Routine v → v.entriesLeft = s.entriesLeft → s.Moves ((v.warn .wArityEntry none).enter .leObjName) :=
    fun v hv hl => hname _ (hv.trans (v.routine_warn rfl none)) hl
  cases h
  split
  · exact .entryCut hseq
  · exact hwarn _ (.refl _) rfl
  · exact hwarn _ (.refl _) rfl
  · next n rest hread =>
    have hadv : s.addEntry.Routine (s.addEntry.advance 1) := State.routine_advance (rdList_inside hread)
    split
    · exact hname _ hadv rfl
    · exact hwarn _ hadv rfl

theorem execOpenRes_moves {s t : State} (hseq : s.seq = .dispatch) (h : execOpenRes s = .next t) : s.Moves t := by
  cases h
  exact .check {} (by simp [hseq, Position.exits, Slot.start, Slot.optional, Slot.reader])

theorem exec_dispatchType_moves {s t : State} {v : BitVec 16} (hseq : s.seq = .dispatch) (h : exec (dispatchType v) s = .next t) :
    s.Moves t := by
  unfold dispatchType at h
  split_ifs at h
  · exact execOpenRes_moves hseq h
  · cases h; exact .close hseq
  · cases h; exact .list hseq
  · cases h; exact .fatal _ (.refl s)

/-- The envelope registers that R233 writes, with `c` as the CRC field. -/
def State.crcEnv (s : State) (c : BitVec 16) : Env :=
  { s.env with crcFieldStart := s.pos, crcField := c, crcComputed := s.crc16Of s.env.msgStart (s.pos - s.env.msgStart) }

theorem State.moves_eom {s u : State} (c : BitVec 16) (hseq : s.seq = .crcField) (hr : (s.setEnv (s.crcEnv c)).Routine u) :
    s.Moves (u.goto .eom) :=
  .crc (e := s.crcEnv c) hseq rfl rfl (hr.trans (u.routine_goto _)) rfl

theorem State.verifyCrc_moves {s : State} {value : Option (BitVec 16)} (hseq : s.seq = .crcField)
    (hlen : value.isSome = true → s.pos + 3 ≤ s.len) : s.Moves (s.verifyCrc value) := by
  cases value with
  | none => exact State.moves_eom 0xFFFF hseq (State.routine_compareCrc _ false)
  | some c =>
    have hadv : (s.setEnv (s.crcEnv c)).Routine ((s.setEnv (s.crcEnv c)).advance 3) := State.routine_advance (hlen rfl)
    exact State.moves_eom c hseq (hadv.trans (State.routine_compareCrc _ true))

theorem execCrc_moves {s t : State} {c : BitVec 16} (hseq : s.seq = .crcField) (h : execCrc c s = .next t) : s.Moves t := by
  cases h
  split
  · exact State.verifyCrc_moves hseq fun _ => ‹_›
  · exact .crcCut hseq

theorem State.crcUnread_moves {s : State} (hseq : s.seq = .crcField) (e : ReadFail) : s.Moves (s.crcUnread e) := by
  cases e with
  | short => exact .crcCut hseq
  | tagMismatch | badLength => exact State.verifyCrc_moves (value := none) hseq nofun

theorem State.field_moves {s t : State} {f : Slot} {op : Op} (hseq : s.seq = .field f op) (h : s.sequence = .next t) : s.Moves t := by
  obtain ⟨u, hran, heq⟩ := sequence_field hseq
  have ht : u.settle f op = t := Host.Outcome.next.inj (heq ▸ h)
  cases ht ▸ (State.settles_settle hran.returned).of_routine hran.routine hran.left with
  | goes op' next routine left place => exact .goes hseq next routine left place
  | cut routine => exact .fatal _ routine
  | done routine left count => exact .done hseq routine left count

/-- Every step of the running sequencer is one of the moves. -/
theorem sequence_moves {s t : State} (hrun : s.resting = false) (h : s.sequence = .next t) : s.Moves t := by
  have hrow : ∀ i, s.seq.row = some i → exec i s = .next t := fun i hi => sequence_row hi ▸ h
  cases hseq : s.seq with
  | idle | done | error => simp [State.resting, Position.resting, hseq] at hrun
  | seekStart => exact execStart_moves hseq (hrow .start (by rw [hseq]; rfl))
  | verifyHeader => exact execVer_moves hseq (hrow .ver (by rw [hseq]; rfl))
  | messageLoop => exact execMsg_moves hseq (hrow .msg (by rw [hseq]; rfl))
  | field f op => exact State.field_moves hseq h
  | bodyList => exact execBodyList_moves hseq (hrow .bodyList (by rw [hseq]; rfl))
  | dispatch =>
    obtain ⟨v, heq | heq⟩ := sequence_dispatch hseq
    · exact exec_dispatchType_moves hseq (heq ▸ h)
    · rw [heq] at h; cases h; exact .fatal _ (.refl s)
  | entryHeader => exact execEntry_moves hseq (hrow .entry (by rw [hseq]; rfl))
  | crcField =>
    obtain ⟨c, heq⟩ | ⟨e, heq⟩ := sequence_crcField hseq
    · exact execCrc_moves hseq (heq ▸ h)
    · rw [heq] at h; cases h; exact State.crcUnread_moves hseq e
  | eom => exact execEom_moves hseq (hrow .eom (by rw [hseq]; rfl))
  | endEscape => exact execEsc_moves hseq (hrow .esc (by rw [hseq]; rfl))
  | endByte => exact execEndByte_moves hseq (hrow .endByte (by rw [hseq]; rfl))
  | seekEnd =>
    rw [sequence_seekEnd hseq] at h
    cases h
    exact State.moves_goto (.refl s) (by simp [hseq, Position.exits])

/-! One step, by what CMD holds (R22, R310, R314). -/

theorem decodeCommand_cases {b : Byte} {i : Instr} (h : decode .command [b] = .ok i) :
    (b = 0x01 ∧ i = .decode) ∨ (b = 0x02 ∧ i = .crc16) := by
  simp only [decode, decodeCommand] at h
  grind

/-- Only CMD and CRCOP differ: the block waits, refuses a CMD write, or runs CRC16. -/
def State.Waits (s t : State) : Prop := t = { s with cmd := none, crcop := t.crcop }

theorem execCrc16_waits {s t : State} (h : execCrc16 s.clearCmd = .next t) : s.Waits t := by
  cases h
  unfold State.Waits
  split <;> rfl

/-- A step accepts a DECODE, waits, or is one of the running sequencer's moves. -/
theorem step_cases {s t : State} (h : step s = .next t) :
    (s.cmd = some 0x01 ∧ s.resting = true ∧ t = s.clearCmd.beginDecode) ∨
    ((s.cmd = none → s.resting = true) ∧ s.Waits t) ∨
    (s.cmd = none ∧ s.resting = false ∧ s.Moves t) := by
  cases hcmd : s.cmd with
  | none =>
    rw [step_of_cmd_none hcmd] at h
    cases hrest : s.resting with
    | true =>
      rw [sequence_resting hrest] at h
      cases h
      exact .inr (.inl ⟨fun _ => rfl, by rw [State.Waits, ← hcmd]⟩)
    | false => exact .inr (.inr ⟨rfl, rfl, sequence_moves hrest h⟩)
  | some b =>
    rw [step_of_cmd_some hcmd] at h
    cases hrest : s.resting with
    | false =>
      simp only [State.acceptCmd, hrest, Bool.false_eq_true, if_false] at h
      cases h
      exact .inr (.inl ⟨nofun, rfl⟩)
    | true =>
      cases hdec : decode .command [b] with
      | error e =>
        simp only [State.acceptCmd, hrest, if_true, hdec] at h
        cases h
        exact .inr (.inl ⟨nofun, rfl⟩)
      | ok i =>
        rw [acceptCmd_of_decode_ok hrest hdec] at h
        obtain ⟨rfl, rfl⟩ | ⟨rfl, rfl⟩ := decodeCommand_cases hdec
        · refine .inl ⟨rfl, rfl, ?_⟩
          have hr : s.clearCmd.resting = true := hrest
          simp only [exec, execDecode, hr, if_true] at h
          exact (Host.Outcome.next.inj h).symm
        · exact .inr (.inl ⟨nofun, execCrc16_waits h⟩)

end Sys2Proof.Machine
end

section
namespace Sys2Proof.Machine

open Sys2Proof

/-! Places that the moves lead to. -/

/-- What holds of a place `p` that a check at `q` leads to: it is no field of a list or entry, and a field, a place behind the CRC field
or in the closing sequence only where `q` is one. -/
structure Position.Behind (q p : Position) : Prop where
  legal : p.legal = true
  ne_error : p ≠ .error
  ne_seekStart : p ≠ .seekStart
  ne_entryHeader : p ≠ .entryHeader
  inMessage : p.inMessage = true → q.inMessage = true
  pastCrc : p.pastCrc = true → q.pastCrc = true
  finishing : p.finishing = true → q.finishing = true
  noEntry : ∀ f op, p = .field f op → f.beforeEntries = false ∧ f.inEntry = false

theorem Position.behind_of_exits {p q : Position} (h : p ∈ q.exits) : q.Behind p := by
  cases q with
  | idle | seekStart | field | entryHeader | crcField | done | error => cases h
  | _ =>
    obtain rfl := List.mem_singleton.1 h
    exact ⟨by decide, by decide, by decide, by decide, by decide, by decide, by decide, by rintro _ _ ⟨⟩ <;> decide⟩

theorem Slot.start_mem_ops (f : Slot) : f.start ∈ f.ops := by cases f <;> decide

/-- The operations of a field are closed under what can follow an operation there. -/
theorem Slot.successors_mem_ops {f : Slot} {op op' : Op} (h : op ∈ f.ops) (h' : op' ∈ f.successors op) : op' ∈ f.ops := by
  have key : ∀ op ∈ f.ops, ∀ op' ∈ f.successors op, op' ∈ f.ops := by cases f <;> decide
  exact key op h op' h'

theorem Position.legal_field {f : Slot} {op : Op} : (Position.field f op).legal = true ↔ op ∈ f.ops := by
  simp [Position.legal]

theorem State.enter_legal (s : State) (f : Slot) : (s.enter f).seq.legal = true := Position.legal_field.2 f.start_mem_ops

theorem State.nextEntry_cases (s : State) :
    (s.entriesLeft = 0 ∧ s.nextEntry = s.enter .glListSignature) ∨ (s.entriesLeft ≠ 0 ∧ s.nextEntry = s.goto .entryHeader) := by
  unfold State.nextEntry
  split
  · exact .inl ⟨‹_›, rfl⟩
  · exact .inr ⟨‹_›, rfl⟩

/-- The value list's loop leads to the list signature or to an entry's header. -/
theorem State.nextEntry_place {P : Position → Prop} (s : State) (hdone : P (.field .glListSignature .opt)) (hmore : P .entryHeader) :
    P s.nextEntry.seq := by
  obtain ⟨-, heq⟩ | ⟨-, heq⟩ := s.nextEntry_cases
  · rw [heq]; exact hdone
  · rw [heq]; exact hmore

/-- Behind a field stands another place of the same message. -/
theorem State.nextField_inMessage (s : State) (f : Slot) : (s.nextField f).seq.inMessage = true := by
  cases f with
  | glValList | leValueSignature => exact State.nextEntry_place (P := fun p => p.inMessage = true) _ rfl rfl
  | _ => rfl

theorem State.nextField_legal (s : State) (f : Slot) : (s.nextField f).seq.legal = true := by
  cases f with
  | glValList | leValueSignature => exact State.nextEntry_place (P := fun p => p.legal = true) _ rfl rfl
  | abortOnError | msgType | openVersion | closeSignature | glGatewayTime => rfl
  | _ => exact State.enter_legal _ _

/-- Only a field of the finishing message's body leads to another. -/
theorem State.nextField_finishing {s : State} {f : Slot} (op : Op) (h : (s.nextField f).seq.finishing = true) :
    (Position.field f op).finishing = true := by
  cases f with
  | glValList | leValueSignature => exact absurd h (State.nextEntry_place (P := fun p => ¬ p.finishing = true) _ nofun nofun)
  | closeArity | closeSignature => rfl
  | _ => cases h

theorem Position.ne_error_of_inMessage {p : Position} (h : p.inMessage = true) : p ≠ .error := by rintro rfl; cases h

theorem Position.ne_seekStart_of_inMessage {p : Position} (h : p.inMessage = true) : p ≠ .seekStart := by rintro rfl; cases h

theorem Position.pastCrc_of_inMessage {p : Position} (h : p.inMessage = true) : p.pastCrc = false := by
  cases p with
  | eom | endEscape | endByte => cases h
  | _ => rfl

/-! The log and the outcome (R26, R27, R270, R284, R285, R290). -/

/-- Nothing fatal has happened between `s` and `t`. -/
structure State.Quiet (s t : State) : Prop where
  log : Logged s.ev s.flags t.ev t.flags := by exact Logged.refl _ _
  result : t.result = s.result := by rfl

theorem State.Routine.quiet {s t : State} (h : s.Routine t) : s.Quiet t := ⟨h.log, h.result⟩

/-- A move ends with a fatal error or is quiet and outside Error. -/
theorem State.Moves.quiet {s t : State} (h : s.Moves t) :
    (∃ u c, s.Quiet u ∧ t = u.raiseFatal c) ∨ (s.Quiet t ∧ t.seq ≠ .error) := by
  cases h with
  | fatal c routine => exact .inl ⟨_, c, routine.quiet, rfl⟩
  | lost => exact .inl ⟨_, _, {}, rfl⟩
  | entryCut => exact .inl ⟨_, _, {}, rfl⟩
  | crcCut => exact .inl ⟨_, _, {}, rfl⟩
  | check routine place => exact .inr ⟨routine.quiet, (Position.behind_of_exits place).ne_error⟩
  | closing _ _ routine next | goes _ _ routine _ next => exact .inr ⟨routine.quiet, by rw [next]; nofun⟩
  | entry _ routine _ next | crc _ _ _ routine next => exact .inr ⟨⟨routine.log, routine.result⟩, by rw [next]; nofun⟩
  | done _ routine =>
    exact .inr ⟨(routine.trans (State.routine_nextField _ _)).quiet, Position.ne_error_of_inMessage (State.nextField_inMessage _ _)⟩
  | found | message | close | list => exact .inr ⟨{}, nofun⟩

theorem FatalCode.event_severity (c : FatalCode) : c.event.severity = .error := by cases c <;> rfl

theorem State.LogInv.of_quiet {s t : State} (h : s.LogInv) (hq : s.Quiet t) : t.LogInv := by
  obtain ⟨new, hev, hnew, hwarn, hcrc⟩ := hq.log
  constructor
  · intro e he
    rw [hev] at he
    exact (List.mem_append.1 he).elim (h.severities e) fun he => (hnew e he).1
  · rw [hwarn, hev, Bool.or_eq_true, h.warned]
    simp [or_and_right, exists_or]
  · rw [hcrc, hev, Bool.or_eq_true, h.crcErr]
    simp [or_and_right, exists_or]

theorem State.LogInv.raiseFatal {s : State} (h : s.LogInv) (c : FatalCode) : (s.raiseFatal c).LogInv := by
  have hcode : c.event ≠ .eCrcMismatch := by cases c <;> nofun
  constructor
  · intro e he
    rw [State.raiseFatal_ev] at he
    obtain he | he := List.mem_append.1 he
    · exact h.severities e he
    · obtain rfl := List.mem_singleton.1 he
      exact c.event_severity.symm
  · simp [h.warned, or_and_right, exists_or]
  · simp [h.crcErr, hcode, or_and_right, exists_or]

theorem State.LogInv.of_moves {s t : State} (h : s.LogInv) (hm : s.Moves t) : t.LogInv := by
  obtain ⟨u, c, hq, rfl⟩ | ⟨hq, -⟩ := hm.quiet
  · exact (h.of_quiet hq).raiseFatal c
  · exact h.of_quiet hq

/-- No event of a quiet run is fatal. -/
theorem State.Quiet.noFatal {s t : State} (hq : s.Quiet t) (h : ∀ e ∈ s.ev, e.code.fatal = false) :
    ∀ e ∈ t.ev, e.code.fatal = false := by
  obtain ⟨new, hev, hnew, -⟩ := hq.log
  intro e he
  rw [hev] at he
  exact (List.mem_append.1 he).elim (h e) fun he => (hnew e he).2

theorem State.OutcomeInv.of_moves {s t : State} (h : s.OutcomeInv) (hrun : s.seq ≠ .error) (hm : s.Moves t) : t.OutcomeInv := by
  obtain ⟨hresult, hev⟩ := h.fine hrun
  obtain ⟨u, c, hq, rfl⟩ | ⟨hq, hne⟩ := hm.quiet
  · refine ⟨fun _ => ⟨c, rfl, ?_, ?_⟩, fun hne => absurd rfl hne⟩
    · rw [State.raiseFatal_eq]
      exact List.getLast?_concat
    · rw [State.raiseFatal_eq, List.dropLast_concat]
      exact hq.noFatal hev
  · exact ⟨fun he => absurd he hne, fun _ => ⟨hq.result.trans hresult, hq.noFatal hev⟩⟩

theorem State.ne_error_of_running {s : State} (h : s.resting = false) : s.seq ≠ .error := by
  intro he
  rw [State.resting, he] at h
  cases h

theorem State.beginDecode_outcomeInv (s : State) : s.beginDecode.OutcomeInv :=
  ⟨nofun, fun _ => ⟨rfl, fun _ he => absurd he List.not_mem_nil⟩⟩

theorem State.beginDecode_logInv (s : State) : s.beginDecode.LogInv where
  severities _ he := absurd he List.not_mem_nil
  warned := by simp [State.beginDecode, FlagReg.clear]
  crcErr := by simp [State.beginDecode, FlagReg.clear]

/-- Settles O51: a running step ends quietly or with one fatal event, the last (`State.Moves.quiet`); DECODE clears the log. -/
theorem stepKeepsOutcome : Obligations.StepKeepsOutcome := by
  unfold Obligations.StepKeepsOutcome
  intro s t h hstep
  obtain ⟨-, -, rfl⟩ | ⟨-, hwait⟩ | ⟨-, hrun, hm⟩ := step_cases hstep
  · exact State.beginDecode_outcomeInv _
  · rw [hwait]
    exact ⟨h.failed, h.fine⟩
  · exact h.of_moves (State.ne_error_of_running hrun) hm

/-! FINISHED (R232, R235). -/

theorem State.FinishInv.of_same {s t : State} (h : s.FinishInv) (hfinished : t.flags.finished = s.flags.finished)
    (hclosed : t.doc.closed.isSome = s.doc.closed.isSome) (hplace : t.seq.finishing = true → s.seq.finishing = true) : t.FinishInv where
  closed := by rw [hfinished, hclosed, h.closed]
  finishing hp := hfinished.trans (h.finishing (hplace hp))

/-- The operation at a field does not decide whether the field is in the finishing message. -/
theorem Position.finishing_field (f : Slot) (op op' : Op) : (Position.field f op).finishing = (Position.field f op').finishing := by
  cases f <;> rfl

theorem State.FinishInv.of_moves {s t : State} (h : s.FinishInv) (hm : s.Moves t) : t.FinishInv := by
  cases hm with
  | fatal c routine => exact h.of_same routine.finished routine.closed nofun
  | check routine place => exact h.of_same routine.finished routine.closed (Position.behind_of_exits place).finishing
  | closing _ finished routine next =>
    exact ⟨by rw [routine.finished, routine.closed, h.closed], fun _ => routine.finished.trans finished⟩
  | found | lost | message | list | entryCut | crcCut => exact h.of_same rfl rfl nofun
  | goes place _ routine _ next =>
    refine h.of_same routine.finished routine.closed fun hp => ?_
    rw [next, Position.finishing_field] at hp
    exact place ▸ hp
  | @done u f op place routine =>
    have hnext := routine.trans (u.routine_nextField f)
    exact h.of_same hnext.finished hnext.closed fun hp => place ▸ State.nextField_finishing _ hp
  | close => exact ⟨rfl, fun _ => rfl⟩
  | entry _ routine _ next | crc _ _ _ routine next => exact h.of_same routine.finished routine.closed (by rw [next]; nofun)

theorem State.beginDecode_finishInv (s : State) : s.beginDecode.FinishInv := ⟨rfl, nofun⟩

/-- Settles O50: quiet moves and fatal events for the log, the four moves that touch FINISHED or DOC.close for the rest. -/
theorem stepKeepsFlags : Obligations.StepKeepsFlags := by
  unfold Obligations.StepKeepsFlags
  intro s t hstep
  obtain ⟨-, -, rfl⟩ | ⟨-, hwait⟩ | ⟨-, -, hm⟩ := step_cases hstep
  · exact ⟨fun _ => State.beginDecode_logInv _, fun _ => State.beginDecode_finishInv _⟩
  · rw [hwait]
    exact ⟨fun h => ⟨h.severities, h.warned, h.crcErr⟩, fun h => ⟨h.closed, h.finishing⟩⟩
  · exact ⟨fun h => h.of_moves hm, fun h => h.of_moves hm⟩

/-! The log only grows (R27, R37). -/

theorem State.Quiet.grows {s t : State} (h : s.Quiet t) :
    (∃ new, t.ev = s.ev ++ new) ∧ (s.flags.crcErr = true → t.flags.crcErr = true) ∧
      (s.flags.warn = true → t.flags.warn = true) := by
  obtain ⟨new, hev, -, hwarn, hcrc⟩ := h.log
  exact ⟨⟨new, hev⟩, fun hs => by rw [hcrc, hs, Bool.true_or], fun hs => by rw [hwarn, hs, Bool.true_or]⟩

theorem State.Moves.grows {s t : State} (hm : s.Moves t) :
    (∃ new, t.ev = s.ev ++ new) ∧ (s.flags.crcErr = true → t.flags.crcErr = true) ∧
      (s.flags.warn = true → t.flags.warn = true) := by
  obtain ⟨u, c, hq, rfl⟩ | ⟨hq, -⟩ := hm.quiet
  · obtain ⟨⟨new, hev⟩, hflags⟩ := hq.grows
    exact ⟨⟨new ++ [c.logged u.pos], by rw [State.raiseFatal_eq, ← List.append_assoc, ← hev]⟩, hflags⟩
  · exact hq.grows

/-- FINISHED is cleared by no move. -/
theorem State.Moves.finished {s t : State} (hm : s.Moves t) (h : s.flags.finished = true) : t.flags.finished = true := by
  cases hm with
  | fatal c routine => exact routine.finished.trans h
  | check routine | closing _ _ routine | goes _ _ routine | entry _ routine | crc _ _ _ routine => exact routine.finished.trans h
  | done _ routine => exact (routine.trans (State.routine_nextField _ _)).finished.trans h
  | found | lost | message | list | entryCut | crcCut => exact h
  | close => rfl

/-- Settles O53: what waits keeps log and flags, what moves appends events and sets flags. -/
theorem logOnlyGrows : Obligations.LogOnlyGrows := by
  unfold Obligations.LogOnlyGrows
  intro s t hstep hcmd
  obtain ⟨h1, hrest, -⟩ | ⟨-, hwait⟩ | ⟨-, -, hm⟩ := step_cases hstep
  · exact absurd ⟨h1, hrest⟩ hcmd
  · rw [hwait]
    exact ⟨⟨[], (List.append_nil _).symm⟩, id, id, id⟩
  · obtain ⟨hev, hcrc, hwarn⟩ := hm.grows
    exact ⟨hev, hcrc, hwarn, hm.finished⟩

/-! The cursor (R24, R163). -/

/-- A move keeps the place one that the rules can reach. -/
theorem State.Moves.legal {s t : State} (h : s.seq.legal = true) (hm : s.Moves t) : t.seq.legal = true := by
  cases hm with
  | fatal | lost | entryCut | crcCut | found => rfl
  | check routine place => exact (Position.behind_of_exits place).legal
  | closing _ _ _ next | crc _ _ _ _ next => rw [next]; rfl
  | entry _ _ _ next => rw [next]; decide
  | message | close | list => exact State.enter_legal _ _
  | goes place step _ _ next =>
    rw [place, Position.legal_field] at h
    rw [next, Position.legal_field]
    exact Slot.successors_mem_ops h step
  | done => exact State.nextField_legal _ _

/-- Inside the buffer a move does not lead back, nor past LEN. -/
theorem State.Moves.pos {s t : State} (hin : s.pos ≤ s.len) (hstart : s.seq = .seekStart → s.pos = 0) (hm : s.Moves t) :
    s.pos ≤ t.pos ∧ t.pos ≤ t.len := by
  have hr : ∀ {u : State}, s.Routine u → s.pos ≤ u.pos ∧ u.pos ≤ u.len := fun h => ⟨h.forward, h.len ▸ h.inside hin⟩
  cases hm with
  | @fatal u c routine => exact hr (u := u) routine
  | check routine | closing _ _ routine | goes _ _ routine => exact hr routine
  | entry _ routine | crc _ _ _ routine => exact ⟨routine.forward, routine.len ▸ routine.inside hin⟩
  | done _ routine => exact hr (routine.trans (State.routine_nextField _ _))
  | found k place inside => exact ⟨by simp [hstart place], inside⟩
  | lost => exact ⟨hin, Nat.le_refl _⟩
  | message _ inside => exact ⟨Nat.le_succ _, inside⟩
  | close | list | entryCut | crcCut => exact ⟨Nat.le_refl _, hin⟩

/-- The cursor's invariant where the registers of the message are as before. -/
theorem State.CursorInv.of_routine {s t : State} (h : s.CursorInv) (hrun : s.resting = false) (hm : s.Moves t) (hr : s.Routine t)
    (hstart : t.seq ≠ .seekStart) (hmsg : t.seq.inMessage = true → s.seq.inMessage = true)
    (hpast : t.seq.pastCrc = true → s.seq.pastCrc = true) : t.CursorInv where
  legal := hm.legal h.legal
  inBuffer _ := (hm.pos (h.inBuffer hrun) h.atStart).2
  atStart he := absurd he hstart
  inMessage hp := hr.msgStart ▸ Nat.lt_of_lt_of_le (h.inMessage (hmsg hp)) hr.forward
  pastCrc hp := by
    rw [hr.msgStart, hr.crcFieldStart]
    exact h.pastCrc (hpast hp)

/-- In Error nothing is asked of the cursor. -/
theorem State.raiseFatal_cursorInv (s : State) (c : FatalCode) : (s.raiseFatal c).CursorInv := ⟨rfl, nofun, nofun, nofun, nofun⟩

theorem State.CursorInv.of_moves {s t : State} (h : s.CursorInv) (hrun : s.resting = false) (hm : s.Moves t) : t.CursorInv := by
  have hlegal := hm.legal h.legal
  have hin := (hm.pos (h.inBuffer hrun) h.atStart).2
  cases hm with
  | fatal | lost | entryCut | crcCut => exact State.raiseFatal_cursorInv _ _
  | check routine place =>
    have hb := Position.behind_of_exits place
    exact h.of_routine hrun (.check routine place) routine hb.ne_seekStart hb.inMessage hb.pastCrc
  | closing place finished routine next =>
    exact h.of_routine hrun (.closing place finished routine next) routine (by rw [next]; nofun) (by rw [next]; nofun)
      fun _ => place ▸ rfl
  | found => exact ⟨rfl, fun _ => hin, nofun, nofun, nofun⟩
  | message => exact ⟨hlegal, fun _ => hin, nofun, fun _ => Nat.lt_succ_self _, nofun⟩
  | goes place step routine left next =>
    exact h.of_routine hrun (.goes place step routine left next) routine (by rw [next]; nofun) (fun _ => place ▸ rfl)
      (by rw [next]; nofun)
  | @done u f op place routine left count =>
    have hplace := u.nextField_inMessage f
    exact h.of_routine hrun (.done place routine left count) (routine.trans (u.routine_nextField f))
      (Position.ne_seekStart_of_inMessage hplace) (fun _ => place ▸ rfl) (by rw [Position.pastCrc_of_inMessage hplace]; nofun)
  | close place | list place => exact ⟨hlegal, fun _ => hin, nofun, fun _ => h.inMessage (place ▸ rfl), nofun⟩
  | entry place routine _ next =>
    refine ⟨hlegal, fun _ => hin, by rw [next]; nofun, fun _ => ?_, by rw [next]; nofun⟩
    rw [routine.msgStart]
    exact Nat.lt_of_lt_of_le (h.inMessage (place ▸ rfl)) routine.forward
  | crc place msgStart fieldStart routine next =>
    refine ⟨hlegal, fun _ => hin, by rw [next]; nofun, by rw [next]; nofun, fun _ => ?_⟩
    rw [routine.msgStart, routine.crcFieldStart]
    simpa [msgStart, fieldStart] using h.inMessage (place ▸ rfl)

theorem State.beginDecode_cursorInv (s : State) : s.beginDecode.CursorInv :=
  ⟨rfl, fun _ => Nat.zero_le _, fun _ => rfl, nofun, nofun⟩

/-- Settles O49: by the moves; only START sets the cursor, and SeekStart has it at 0. -/
theorem stepKeepsCursor : Obligations.StepKeepsCursor := by
  unfold Obligations.StepKeepsCursor
  intro s t h hstep
  obtain ⟨-, hrest, rfl⟩ | ⟨hrest, hwait⟩ | ⟨-, hrun, hm⟩ := step_cases hstep
  · exact ⟨State.beginDecode_cursorInv _, fun _ hrun => absurd (hrest.symm.trans hrun) nofun⟩
  · refine ⟨?_, fun hcmd hrun => absurd ((hrest hcmd).symm.trans hrun) nofun⟩
    rw [hwait]
    exact ⟨h.legal, h.inBuffer, h.atStart, h.inMessage, h.pastCrc⟩
  · exact ⟨h.of_moves hrun hm, fun _ _ => hm.pos (h.inBuffer hrun) h.atStart⟩

end Sys2Proof.Machine
end

section
namespace Sys2Proof.Machine

open Sys2Proof

/-! The entries (R33, R185). -/

/-- How many entries each GetListResponse has. -/
def State.counts (s : State) : List Nat := s.doc.lists.map (·.entries.length)

theorem State.currentEntries_eq (s : State) : s.currentEntries = s.counts.getLast?.getD 0 := by
  unfold State.currentEntries State.counts
  rw [List.getLast?_map]
  cases s.doc.lists.getLast? <;> rfl

theorem State.bound_iff (s : State) :
    (∀ r ∈ s.doc.lists, r.entries.length ≤ Config.capEntries) ↔ ∀ n ∈ s.counts, n ≤ Config.capEntries := by
  simp [State.counts]

/-- What the entries must be at the field `f`. -/
structure State.EntryAt (s : State) (f : Slot) : Prop where
  bound : ∀ n ∈ s.counts, n ≤ Config.capEntries
  before : f.beforeEntries = true → s.currentEntries = 0
  inside : f.inEntry = true → 0 < s.entriesLeft ∧ s.currentEntries + s.entriesLeft ≤ Config.capEntries + 1

theorem State.EntryInv.at {s : State} {f : Slot} {op : Op} (h : s.EntryInv) (hseq : s.seq = .field f op) : s.EntryAt f :=
  ⟨s.bound_iff.1 h.bound, h.before f op hseq, h.inside f op hseq⟩

theorem State.EntryAt.inv {s : State} {f : Slot} {op : Op} (h : s.EntryAt f) (hseq : s.seq = .field f op) : s.EntryInv where
  bound := s.bound_iff.2 h.bound
  before g op' hg hb := by rw [hseq] at hg; cases hg; exact h.before hb
  header he := by rw [hseq] at he; cases he
  inside g op' hg hi := by rw [hseq] at hg; cases hg; exact h.inside hi

/-- At a place that is no field of a list and no entry's header only the bound is asked. -/
theorem State.entryInv_elsewhere {s : State} (hbound : ∀ n ∈ s.counts, n ≤ Config.capEntries) (hheader : s.seq ≠ .entryHeader)
    (hfield : ∀ f op, s.seq = .field f op → f.beforeEntries = false ∧ f.inEntry = false) : s.EntryInv where
  bound := s.bound_iff.2 hbound
  before f op hf hb := by rw [(hfield f op hf).1] at hb; cases hb
  header he := absurd he hheader
  inside f op hf hi := by rw [(hfield f op hf).2] at hi; cases hi

theorem State.entryInv_header {s : State} (hbound : ∀ n ∈ s.counts, n ≤ Config.capEntries) (hseq : s.seq = .entryHeader)
    (hleft : 0 < s.entriesLeft ∧ s.currentEntries + s.entriesLeft ≤ Config.capEntries) : s.EntryInv where
  bound := s.bound_iff.2 hbound
  before f op hf := by rw [hseq] at hf; cases hf
  header _ := hleft
  inside f op hf := by rw [hseq] at hf; cases hf

theorem State.Routine.counts_eq {s t : State} (h : s.Routine t) : t.counts = s.counts := h.counts

theorem State.Routine.currentEntries {s t : State} (h : s.Routine t) : t.currentEntries = s.currentEntries := by
  rw [State.currentEntries_eq, h.counts_eq, State.currentEntries_eq]

theorem State.EntryAt.of_routine {s t : State} {f : Slot} (h : s.EntryAt f) (hr : s.Routine t)
    (hl : f.inEntry = true → t.entriesLeft = s.entriesLeft) : t.EntryAt f where
  bound := hr.counts_eq ▸ h.bound
  before hb := hr.currentEntries.trans (h.before hb)
  inside hi := by rw [hr.currentEntries, hl hi]; exact h.inside hi

/-- From a field to one that asks nothing more of the entries. -/
theorem State.EntryAt.enter {s : State} {f g : Slot} (h : s.EntryAt f) (hb : g.beforeEntries = true → f.beforeEntries = true)
    (hi : g.inEntry = true → f.inEntry = true) : (s.enter g).EntryInv :=
  State.EntryAt.inv (f := g) ⟨h.bound, fun hg => h.before (hb hg), fun hg => h.inside (hi hg)⟩ rfl

theorem State.EntryAt.nextEntry {s : State} {f : Slot} (h : s.EntryAt f) (hleft : s.currentEntries + s.entriesLeft ≤ Config.capEntries) :
    s.nextEntry.EntryInv := by
  obtain ⟨-, heq⟩ | ⟨hne, heq⟩ := s.nextEntry_cases
  · rw [heq]; exact h.enter nofun nofun
  · rw [heq]; exact State.entryInv_header h.bound rfl ⟨Nat.pos_of_ne_zero hne, hleft⟩

theorem State.warnEmpty_entriesLeft (s : State) (bs : List Byte) (c : EventCode) (f : FieldId) :
    (s.warnEmpty bs c f).entriesLeft = s.entriesLeft := by
  unfold State.warnEmpty
  split <;> rfl

/-- The next line behind a field finds the entries as it must: the value list's count is at most 15 with no entry read, and the end of an
entry counts one down. -/
theorem State.EntryAt.nextField {s : State} {f : Slot} (h : s.EntryAt f) (hcount : f = .glValList → s.entriesLeft ≤ Config.capEntries) :
    (s.nextField f).EntryInv := by
  cases f with
  | glValList => exact h.nextEntry (by rw [h.before rfl, Nat.zero_add]; exact hcount rfl)
  | leValueSignature =>
    obtain ⟨hpos, hle⟩ := h.inside rfl
    have hone : (s.setEntriesLeft (s.entriesLeft - 1)).EntryAt .glListSignature := ⟨h.bound, nofun, nofun⟩
    exact hone.nextEntry (show s.currentEntries + (s.entriesLeft - 1) ≤ _ by omega)
  | openReqField | openServerId | glServerId =>
    exact (h.of_routine (s.routine_warnEmpty _ rfl _) fun _ => s.warnEmpty_entriesLeft _ _ _).enter (by decide) (by decide)
  | abortOnError | msgType | openVersion | closeSignature | glGatewayTime =>
    exact State.entryInv_elsewhere h.bound nofun (by rintro _ _ ⟨⟩)
  | _ => rw [State.nextField]; exact h.enter (by decide) (by decide)

/-! A new entry (R200). -/

theorem mem_mapLast {α : Type} {f : α → α} {l : List α} {y : α} (h : y ∈ mapLast f l) :
    y ∈ l ∨ ∃ x, l.getLast? = some x ∧ y = f x := by
  fun_induction mapLast f l with
  | case1 => cases h
  | case2 x => exact .inr ⟨x, rfl, List.mem_singleton.1 h⟩
  | case3 x z rest ih =>
    obtain rfl | h := List.mem_cons.1 h
    · exact .inl List.mem_cons_self
    · exact (ih h).imp (List.mem_cons_of_mem x) fun ⟨w, hw, hy⟩ => ⟨w, by rw [List.getLast?_cons_cons, hw], hy⟩

/-- The list being filled, where there is one, has one entry more. -/
theorem State.addEntry_currentEntries (s : State) : s.addEntry.currentEntries ≤ s.currentEntries + 1 := by
  simp only [State.currentEntries, State.addEntry, State.updateList_doc, mapLast_getLast?]
  cases s.doc.lists.getLast? <;> simp

theorem State.addEntry_bound {s : State} (hbound : ∀ r ∈ s.doc.lists, r.entries.length ≤ Config.capEntries)
    (hroom : s.currentEntries + 1 ≤ Config.capEntries) : ∀ r ∈ s.addEntry.doc.lists, r.entries.length ≤ Config.capEntries := by
  intro r hr
  obtain hr | ⟨x, hx, rfl⟩ := mem_mapLast hr
  · exact hbound r hr
  · simpa [State.currentEntries, hx] using hroom

theorem State.EntryInv.of_moves {s t : State} (h : s.EntryInv) (hlegal : s.seq.legal = true) (hm : s.Moves t) : t.EntryInv := by
  have hbound := s.bound_iff.1 h.bound
  cases hm with
  | fatal c routine => exact State.entryInv_elsewhere (routine.counts_eq ▸ hbound) nofun (by rintro _ _ ⟨⟩)
  | check routine place =>
    have hb := Position.behind_of_exits place
    exact State.entryInv_elsewhere (routine.counts_eq ▸ hbound) hb.ne_entryHeader hb.noEntry
  | closing _ _ routine next =>
    exact State.entryInv_elsewhere (routine.counts_eq ▸ hbound) (by rw [next]; nofun) (by rw [next]; rintro _ _ ⟨⟩)
  | found | lost | crcCut => exact State.entryInv_elsewhere hbound nofun (by rintro _ _ ⟨⟩)
  | message | close => exact State.entryInv_elsewhere hbound nofun (by rintro _ _ ⟨⟩; decide)
  | goes place _ routine left next => exact ((h.at place).of_routine routine fun _ => left).inv next
  | @done u f op place routine left count =>
    have hat : u.EntryAt f := (h.at place).of_routine routine fun hi => left (by rintro rfl; cases hi)
    refine hat.nextField fun hf => count hf ?_
    subst hf
    rw [place, Position.legal_field] at hlegal
    simpa [Slot.ops, Slot.optional, Slot.reader, readerOps] using hlegal
  | list =>
    refine State.EntryAt.inv (f := .glArity) ⟨?_, fun _ => ?_, nofun⟩ rfl
    · simpa [State.counts, ListResponse.fresh, or_imp, forall_and] using h.bound
    · simp [State.currentEntries, ListResponse.fresh]
  | entry place routine left next =>
    obtain ⟨hpos, hle⟩ := h.header place
    have hone := s.addEntry_currentEntries
    refine State.EntryAt.inv (f := .leObjName) ⟨?_, nofun, fun _ => ?_⟩ next
    · rw [routine.counts_eq, ← State.bound_iff]
      exact State.addEntry_bound h.bound (by omega)
    · rw [left, routine.currentEntries]
      omega
  | entryCut place =>
    obtain ⟨hpos, hle⟩ := h.header place
    exact State.entryInv_elsewhere ((State.bound_iff _).1 (State.addEntry_bound h.bound (by omega))) nofun (by rintro _ _ ⟨⟩)
  | crc _ _ _ routine next =>
    exact State.entryInv_elsewhere (routine.counts_eq ▸ hbound) (by rw [next]; nofun) (by rw [next]; rintro _ _ ⟨⟩)

theorem State.beginDecode_entryInv (s : State) : s.beginDecode.EntryInv :=
  State.entryInv_elsewhere (fun _ hn => absurd hn List.not_mem_nil) nofun (by rintro _ _ ⟨⟩)

/-- Settles O52: an entry begins only while the counter, at most 15 when the value list is read, leaves room for it. -/
theorem stepKeepsEntryBound : Obligations.StepKeepsEntryBound := by
  unfold Obligations.StepKeepsEntryBound
  intro s t hlegal h hstep
  obtain ⟨-, -, rfl⟩ | ⟨-, hwait⟩ | ⟨-, -, hm⟩ := step_cases hstep
  · exact ⟨rfl, State.beginDecode_entryInv _⟩
  · rw [hwait]
    exact ⟨hlegal, h.bound, h.before, h.header, h.inside⟩
  · exact ⟨hm.legal hlegal, h.of_moves hlegal hm⟩

end Sys2Proof.Machine
end

/-! No rule reads an output (R27, R37, R286): two states that are equal but for the outputs stay so under every operation. -/

section
namespace Sys2Proof.Machine

open Sys2Proof

/-- Equal but for the outputs EV, RESULT, CRC_ERR, WARN and CRCOP.out. -/
def State.Alike (s s' : State) : Prop := s.withoutOutputs = s'.withoutOutputs

theorem State.Alike.symm {s s' : State} (h : s.Alike s') : s'.Alike s := Eq.symm h

theorem State.Alike.trans {s t u : State} (h : s.Alike t) (k : t.Alike u) : s.Alike u := Eq.trans h k

/-- Two outcomes that are next states, alike. -/
inductive Out.NextAlike : Out → Out → Prop
  | next {t t' : State} : t.Alike t' → Out.NextAlike (.next t) (.next t')

/-! What alike states agree in. -/

section
variable {s s' : State} (h : s.Alike s')
include h

/-- A function of the state that no output changes has one value at alike states. -/
theorem State.Alike.agree {α : Type} (F : State → α) (hF : ∀ u : State, F u.withoutOutputs = F u) : F s = F s' := by
  rw [← hF s, ← hF s', h]

/-- A write of the state that reads no output keeps states alike. -/
theorem State.Alike.map (F : State → State) (hF : ∀ u : State, (F u).Alike (F u.withoutOutputs)) : (F s).Alike (F s') := by
  refine (hF s).trans ?_
  rw [h]
  exact (hF s').symm

theorem State.Alike.cfg : s.cfg = s'.cfg := h.agree State.cfg fun _ => rfl
theorem State.Alike.buf : s.buf = s'.buf := h.agree State.buf fun _ => rfl
theorem State.Alike.len : s.len = s'.len := h.agree State.len fun _ => rfl
theorem State.Alike.pos : s.pos = s'.pos := h.agree State.pos fun _ => rfl
theorem State.Alike.cmd : s.cmd = s'.cmd := h.agree State.cmd fun _ => rfl
theorem State.Alike.seq : s.seq = s'.seq := h.agree State.seq fun _ => rfl
theorem State.Alike.finished : s.flags.finished = s'.flags.finished := h.agree (·.flags.finished) fun _ => rfl
theorem State.Alike.crcopStart : s.crcop.start = s'.crcop.start := h.agree (·.crcop.start) fun _ => rfl
theorem State.Alike.crcopLen : s.crcop.len = s'.crcop.len := h.agree (·.crcop.len) fun _ => rfl
theorem State.Alike.env : s.env = s'.env := h.agree State.env fun _ => rfl
theorem State.Alike.doc : s.doc = s'.doc := h.agree State.doc fun _ => rfl
theorem State.Alike.entriesLeft : s.entriesLeft = s'.entriesLeft := h.agree State.entriesLeft fun _ => rfl
theorem State.Alike.ret : s.ret = s'.ret := h.agree State.ret fun _ => rfl
theorem State.Alike.resting : s.resting = s'.resting := h.agree State.resting fun _ => rfl
theorem State.Alike.window : s.window = s'.window := h.agree State.window fun _ => rfl
theorem State.Alike.bytesFrom (a : Nat) : s.bytesFrom a = s'.bytesFrom a := h.agree (·.bytesFrom a) fun _ => rfl
theorem State.Alike.fetchBytes : s.fetchBytes = s'.fetchBytes := h.agree State.fetchBytes fun _ => rfl

/-! The register writes. -/

theorem State.Alike.goto (p : Position) : (s.goto p).Alike (s'.goto p) := h.map (State.goto · p) fun _ => rfl
theorem State.Alike.enter (f : Slot) : (s.enter f).Alike (s'.enter f) := h.goto _
theorem State.Alike.advance (n : Nat) : (s.advance n).Alike (s'.advance n) := h.map (State.advance · n) fun _ => rfl
theorem State.Alike.return (st : Status) (v : Val) : (s.return st v).Alike (s'.return st v) := h.map (State.return · st v) fun _ => rfl
theorem State.Alike.setRet (r : Ret) : State.Alike { s with ret := r } { s' with ret := r } :=
  h.map (fun s => { s with ret := r }) fun _ => rfl
theorem State.Alike.setPos {n n' : Nat} (hn : n = n') : State.Alike { s with pos := n } { s' with pos := n' } := by
  subst hn
  exact h.map (fun s => { s with pos := n }) fun _ => rfl
theorem State.Alike.setEnv (e : Env) : (s.setEnv e).Alike (s'.setEnv e) := h.map (State.setEnv · e) fun _ => rfl
theorem State.Alike.setDoc (d : Document) : (s.setDoc d).Alike (s'.setDoc d) := h.map (State.setDoc · d) fun _ => rfl
theorem State.Alike.setEntriesLeft (n : Nat) : (s.setEntriesLeft n).Alike (s'.setEntriesLeft n) :=
  h.map (State.setEntriesLeft · n) fun _ => rfl
theorem State.Alike.setFinished : s.setFinished.Alike s'.setFinished := h.map State.setFinished fun _ => rfl
theorem State.Alike.clearCmd : s.clearCmd.Alike s'.clearCmd := h.map State.clearCmd fun _ => rfl
theorem State.Alike.beginDecode : s.beginDecode.Alike s'.beginDecode :=
  h.map State.beginDecode fun _ => rfl

theorem State.Alike.warn (c : EventCode) (f : Option FieldId) : (s.warn c f).Alike (s'.warn c f) := h
theorem State.Alike.raiseFatal (c : FatalCode) : (s.raiseFatal c).Alike (s'.raiseFatal c) := h.goto .error

theorem State.Alike.updateOpen (g : OpenResponse → OpenResponse) : (s.updateOpen g).Alike (s'.updateOpen g) :=
  h.map (State.updateOpen · g) fun _ => rfl
theorem State.Alike.updateList (g : ListResponse → ListResponse) : (s.updateList g).Alike (s'.updateList g) :=
  h.map (State.updateList · g) fun _ => rfl
theorem State.Alike.updateEntry (g : ListEntry → ListEntry) : (s.updateEntry g).Alike (s'.updateEntry g) :=
  h.map (State.updateEntry · g) fun _ => rfl
theorem State.Alike.updateClose (g : CloseResponse → CloseResponse) : (s.updateClose g).Alike (s'.updateClose g) :=
  h.map (State.updateClose · g) fun _ => rfl

theorem State.Alike.compareCrc (readOk : Bool) : (s.compareCrc readOk).Alike (s'.compareCrc readOk) := by
  have : ∀ u : State, (u.compareCrc readOk).Alike u := fun u => by
    unfold State.compareCrc
    split <;> rfl
  exact ((this s).trans h).trans (this s').symm

theorem State.Alike.governed (k : Check) (c : FatalCode) (w : EventCode) {next : State → State}
    (hnext : ∀ {u u' : State}, u.Alike u' → (next u).Alike (next u')) : (s.governed k c w next).Alike (s'.governed k c w next) := by
  unfold State.governed
  rw [h.cfg, h.env]
  split
  · exact h.raiseFatal c
  · exact hnext (h.warn w none)

theorem State.Alike.accept (n : Nat) (v w : Val) : (s.accept n v w).Alike (s'.accept n v w) := by
  unfold State.accept
  rw [h.pos, h.len]
  split
  · exact (h.advance n).return _ _
  · exact h.return _ _

theorem State.Alike.skipAbsent : s.skipAbsent.Alike s'.skipAbsent := by
  unfold State.skipAbsent
  rw [h.pos, h.len]
  split
  · exact (h.advance 1).return _ _
  · exact h.return _ _

/-! The sequencer's helpers at a field. -/

theorem State.Alike.checkArity (f : Slot) (n : BitVec 8) : (s.checkArity f n).Alike (s'.checkArity f n) := by
  unfold State.checkArity
  split
  · exact h
  · split
    · exact h
    · exact h.warn _ none

theorem State.Alike.store (f : Slot) (op : Op) (v : Val) : (s.store f op v).Alike (s'.store f op v) := by
  cases f with
  | transactionId | groupNo | abortOnError | msgType => simp only [State.store, h.env]; exact h.setEnv _
  | openArity | closeArity | glArity => rw [State.store, State.store]; exact h.checkArity _ _
  | openCodepage | openClientId | openReqField | openServerId | openRefTime | openVersion => exact h.updateOpen _
  | closeSignature => exact h.updateClose _
  | glClientId | glServerId | glListName | glSensorTime | glListSignature | glGatewayTime => exact h.updateList _
  | glValList => exact h.setEntriesLeft _
  | leObjName | leStatus | leValTime | leUnit | leScaler | leValue | leValueSignature => exact h.updateEntry _

theorem State.Alike.warnField (f : Slot) : (s.warnField f).Alike (s'.warnField f) := by
  unfold State.warnField
  split <;> exact h.warn _ _

theorem State.Alike.missField (f : Slot) : (s.missField f).Alike (s'.missField f) := by
  have hw := h.warnField f
  cases f with
  | transactionId | groupNo | abortOnError | msgType => simp only [State.missField, hw.env]; exact hw.setEnv _
  | glValList => exact hw.setEntriesLeft 0
  | _ => exact hw

theorem State.Alike.warnEmpty (bs : List Byte) (c : EventCode) (f : FieldId) : (s.warnEmpty bs c f).Alike (s'.warnEmpty bs c f) := by
  unfold State.warnEmpty
  split
  · exact h.warn _ _
  · exact h

theorem State.Alike.nextEntry : s.nextEntry.Alike s'.nextEntry := by
  unfold State.nextEntry
  rw [h.entriesLeft]
  split
  · exact h.enter _
  · exact h.goto _

theorem State.Alike.nextField (f : Slot) : (s.nextField f).Alike (s'.nextField f) := by
  cases f with
  | openReqField => simp only [State.nextField, State.currentReqField, h.doc]; exact (h.warnEmpty _ _ _).enter _
  | openServerId => simp only [State.nextField, State.currentOpenServerId, h.doc]; exact (h.warnEmpty _ _ _).enter _
  | glServerId => simp only [State.nextField, State.currentListServerId, h.doc]; exact (h.warnEmpty _ _ _).enter _
  | glValList => exact h.nextEntry
  | leValueSignature => simp only [State.nextField, h.entriesLeft]; exact (h.setEntriesLeft _).nextEntry
  | abortOnError | msgType | openVersion | closeSignature | glGatewayTime => exact h.goto _
  | _ => exact h.enter _

theorem State.Alike.finish (f : Slot) (op : Op) : (s.finish f op).Alike (s'.finish f op) := by
  unfold State.finish
  rw [h.ret]
  have hr := h.setRet (if f.dispatches then dispatched op s'.ret else s'.ret)
  dsimp only
  split
  · exact hr.raiseFatal _
  · exact hr.nextField f
  · exact (hr.missField f).nextField f
  · exact (hr.missField f).nextField f
  · exact (hr.store f op _).nextField f

theorem State.Alike.follow (f : Slot) : (s.follow f).Alike (s'.follow f) := by
  unfold State.follow
  rw [h.ret]
  split
  · exact h.goto _
  all_goals exact h.nextField f

theorem State.Alike.settle (f : Slot) (op : Op) : (s.settle f op).Alike (s'.settle f op) := by
  unfold State.settle
  rw [h.ret]
  split
  · cases op with
    | ostrLen =>
      simp only [State.afterOstrLen, h.ret]
      split
      · split
        · exact (h.return _ _).finish f _
        · exact h.goto _
      all_goals exact h.finish f _
    | listLen =>
      simp only [State.afterListLen, h.ret]
      split
      · exact (h.return _ _).finish f _
      · exact h.goto _
    | peek =>
      simp only [State.afterPeek, h.ret]
      split
      · exact (h.advance 1).nextField f
      · exact h.goto _
    | isOstr =>
      simp only [State.afterIsOstr, h.ret]
      split
      · exact (h.warn _ _).nextField f
      · exact h.goto _
    | opt | ostrAny | unsigned | integer | status | value => exact h.follow f
    | _ => exact h.finish f _
  · exact h.finish f op

/-! The rows that read more than a register. -/

theorem State.Alike.execStart : (execStart s).NextAlike (execStart s') := by
  have hfind : findPattern (seekPattern s.cfg.startMode) (s.bytesFrom 0) =
      findPattern (seekPattern s'.cfg.startMode) (s'.bytesFrom 0) := by rw [h.cfg, h.bytesFrom]
  unfold Machine.execStart
  rw [hfind]
  split
  · exact .next ((h.setPos h.len).raiseFatal _)
  · exact .next ((h.setPos rfl).goto _)

theorem State.Alike.execVer : (execVer s).NextAlike (execVer s') := by
  simp only [Machine.execVer, h.buf, h.len, h.pos]
  split_ifs
  · exact .next (h.raiseFatal _)
  · exact .next ((h.advance 8).goto _)
  · exact .next (h.raiseFatal _)

theorem State.Alike.beginMessage : s.beginMessage.Alike s'.beginMessage := by
  simp only [State.beginMessage, h.env, h.pos]
  exact ((h.setEnv _).advance 1).enter _

theorem State.Alike.execMsg : (execMsg s).NextAlike (execMsg s') := by
  simp only [Machine.execMsg, h.finished, h.pos, h.len, h.buf]
  split_ifs
  · exact .next (h.goto _)
  · exact .next h.beginMessage
  · exact .next (h.goto _)

theorem State.Alike.execBodyList : (execBodyList s).NextAlike (execBodyList s') := by
  simp only [Machine.execBodyList, h.window]
  split
  · exact .next (h.raiseFatal _)
  · exact .next (h.governed _ _ _ fun k => k.enter _)
  · exact .next (h.governed _ _ _ fun k => k.enter _)
  · split
    · exact .next ((h.advance 1).enter _)
    · exact .next ((h.advance 1).governed _ _ _ fun k => k.enter _)

theorem State.Alike.execEntry : (execEntry s).NextAlike (execEntry s') := by
  have hadd := h.updateList fun r => { r with entries := r.entries ++ [ListEntry.fresh] }
  simp only [Machine.execEntry, hadd.window]
  split
  · exact .next (hadd.raiseFatal _)
  · exact .next ((hadd.warn _ _).enter _)
  · exact .next ((hadd.warn _ _).enter _)
  · split
    · exact .next ((hadd.advance 1).enter _)
    · exact .next (((hadd.advance 1).warn _ _).enter _)

theorem State.Alike.verifyCrc (value : Option (BitVec 16)) : (s.verifyCrc value).Alike (s'.verifyCrc value) := by
  simp only [State.verifyCrc, State.crc16Of, h.env, h.pos, h.buf]
  split
  · exact (((h.setEnv _).advance 3).compareCrc _).goto _
  · exact ((h.setEnv _).compareCrc _).goto _

theorem State.Alike.crcCut : s.crcCut.Alike s'.crcCut := by
  simp only [State.crcCut, h.env, h.pos]
  exact (h.setEnv _).raiseFatal _

theorem State.Alike.crcUnread (e : ReadFail) : (s.crcUnread e).Alike (s'.crcUnread e) := by
  cases e with
  | short => exact h.crcCut
  | tagMismatch | badLength => exact h.verifyCrc none

theorem State.Alike.execCrc (c : BitVec 16) : (execCrc c s).NextAlike (execCrc c s') := by
  simp only [Machine.execCrc, h.pos, h.len]
  split
  · exact .next (h.verifyCrc _)
  · exact .next h.crcCut

theorem State.Alike.afterEom : s.afterEom.Alike s'.afterEom := by
  simp only [State.afterEom, h.finished]
  split
  · exact h.goto _
  · exact h.goto _

theorem State.Alike.execEom : (execEom s).NextAlike (execEom s') := by
  simp only [Machine.execEom, h.len, h.pos, h.buf]
  split_ifs
  · exact .next (h.raiseFatal _)
  · exact .next (h.advance 1).afterEom
  · exact .next (h.governed _ _ _ fun k => k.afterEom)

theorem State.Alike.execEsc : (execEsc s).NextAlike (execEsc s') := by
  simp only [Machine.execEsc, h.len, h.pos, h.buf]
  split_ifs
  · exact .next (h.raiseFatal _)
  · exact .next ((h.advance 4).goto _)
  · exact .next (h.governed _ _ _ fun k => k.goto _)

theorem State.Alike.execEndByte : (execEndByte s).NextAlike (execEndByte s') := by
  simp only [Machine.execEndByte, h.len, h.pos, h.buf]
  split_ifs
  · exact .next (h.raiseFatal _)
  · exact .next ((h.advance 1).goto _)
  · exact .next (h.governed _ _ _ fun k => k.goto _)

theorem State.Alike.execValue (b : Byte) : (execValue b s).NextAlike (execValue b s') := by
  unfold Machine.execValue
  split_ifs
  · exact .next (h.return _ _)
  · exact .next (h.return _ _)
  · exact .next (h.return _ _)
  · exact .next ((h.warn _ _).return _ _)

theorem State.Alike.execRdOstrAny (b : Byte) : (execRdOstrAny b s).NextAlike (execRdOstrAny b s') := by
  unfold Machine.execRdOstrAny
  split_ifs <;> exact .next (h.return _ _)

theorem State.Alike.execXostr (ns : List (BitVec 4)) (t : Byte) (p : List Byte) : (execXostr ns t p s).NextAlike (execXostr ns t p s') := by
  unfold Machine.execXostr
  split
  · exact .next (h.return _ _)
  · exact .next (h.accept _ _ _)

theorem State.Alike.execOpt (b : Byte) : (execOpt b s).NextAlike (execOpt b s') := by
  unfold Machine.execOpt
  rw [h.seq]
  split
  · exact .next h.skipAbsent
  · split <;> exact .next (h.return _ _)

theorem State.Alike.selectReader (r : Option Op) : (s.selectReader r).Alike (s'.selectReader r) := by
  cases r <;> exact h.return _ _

theorem State.Alike.execOpenRes : (execOpenRes s).NextAlike (execOpenRes s') := by
  simp only [Machine.execOpenRes, h.doc]
  exact .next ((h.setDoc _).enter _)

theorem State.Alike.execCloseRes : (execCloseRes s).NextAlike (execCloseRes s') := by
  simp only [Machine.execCloseRes, h.doc]
  exact .next ((h.setFinished.setDoc _).enter _)

theorem State.Alike.execGetlistRes : (execGetlistRes s).NextAlike (execGetlistRes s') := by
  simp only [Machine.execGetlistRes, h.doc]
  exact .next ((h.setDoc _).enter _)

theorem State.Alike.execDecode : (execDecode s).NextAlike (execDecode s') := by
  simp only [Machine.execDecode, h.resting]
  split
  · exact .next h.beginDecode
  · exact .next h

theorem State.Alike.setCrcOut (v v' : BitVec 16) :
    State.Alike { s with crcop := { s.crcop with out := v } } { s' with crcop := { s'.crcop with out := v' } } := h

theorem State.Alike.execCrc16 : (execCrc16 s).NextAlike (execCrc16 s') := by
  have hcond : (s.resting = true ∧ s.crcop.start + s.crcop.len ≤ s.len) =
      (s'.resting = true ∧ s'.crcop.start + s'.crcop.len ≤ s'.len) := by
    rw [h.resting, h.crcopStart, h.crcopLen, h.len]
  unfold Machine.execCrc16
  by_cases hc : s.resting = true ∧ s.crcop.start + s.crcop.len ≤ s.len
  · rw [if_pos hc, if_pos (hcond ▸ hc)]
    exact .next (h.setCrcOut _ _)
  · rw [if_neg hc, if_neg (hcond ▸ hc)]
    exact .next h

/-- Every row keeps states alike. -/
theorem State.Alike.exec (i : Instr) : Out.NextAlike (Machine.exec i s) (Machine.exec i s') := by
  cases i with
  | eom => exact h.execEom
  | absent => exact .next h.skipAbsent
  | ostr | u8 | u16 | u32 | u64 | i8 | i16 | i32 | i64 | list | timeSec | timeTs | timeLocal => exact .next (h.accept _ _ _)
  | xostr => exact h.execXostr _ _ _
  | esc => exact h.execEsc
  | endByte => exact h.execEndByte
  | start => exact h.execStart
  | ver => exact h.execVer
  | msg => exact h.execMsg
  | bodyList => exact h.execBodyList
  | openRes => exact h.execOpenRes
  | closeRes => exact h.execCloseRes
  | getlistRes => exact h.execGetlistRes
  | unknownType => exact .next (h.raiseFatal _)
  | crc c => exact h.execCrc c
  | entry => exact h.execEntry
  | value b => exact h.execValue b
  | rdOstrAny b => exact h.execRdOstrAny b
  | rdUnsigned | rdInteger | rdStatus => exact .next (h.selectReader _)
  | isOstr | ostrLen | listLen | peek => exact .next (h.return _ _)
  | opt b => exact h.execOpt b
  | decode => exact h.execDecode
  | crc16 => exact h.execCrc16

/-! The step. -/

omit h in
theorem Out.NextAlike.settleOut {o o' : Out} (ho : o.NextAlike o') (p : Position) : (settleOut p o).NextAlike (settleOut p o') := by
  cases ho with
  | next ht =>
    cases p with
    | field f op => exact .next (ht.settle f op)
    | _ => exact .next ht

theorem State.Alike.unread (e : ReadFail) : (s.unread e).NextAlike (s'.unread e) := by
  unfold State.unread
  rw [h.seq]
  cases s'.seq with
  | field f op => exact .next ((h.return _ _).settle f op)
  | dispatch => rw [h.env]; exact h.exec _
  | crcField => exact .next (h.crcUnread e)
  | seekEnd => exact .next (h.goto _)
  | idle | done | error => exact .next h
  | _ => exact h.exec _

theorem State.Alike.sequence : s.sequence.NextAlike s'.sequence := by
  unfold State.sequence
  rw [h.seq, h.fetchBytes]
  split
  · split
    · exact Out.NextAlike.settleOut (h.exec _) _
    · exact h.unread _
  · split
    · exact .next (h.goto _)
    · exact .next h

theorem State.Alike.acceptCmd (b : Byte) : (s.acceptCmd b).NextAlike (s'.acceptCmd b) := by
  unfold State.acceptCmd
  rw [h.resting]
  split
  · split
    · exact h.clearCmd.exec _
    · exact .next h.clearCmd
  · exact .next h.clearCmd

theorem State.Alike.step : Out.NextAlike (Machine.step s) (Machine.step s') := by
  unfold Machine.step State.stepOnce
  rw [h.cmd]
  split
  · exact h.acceptCmd _
  · exact h.sequence

end

/-- Settles O56: alike states take alike steps (`State.Alike.step`). -/
theorem outputsNeverRead : Obligations.OutputsNeverRead := by
  unfold Obligations.OutputsNeverRead
  intro s s' t t' h hstep hstep'
  have hs : s.Alike s' := h
  have halike := hs.step
  rw [hstep, hstep'] at halike
  cases halike with
  | next ht => exact ht

end Sys2Proof.Machine
end

/-! The host's acts (R22, R41, R313 to R315) and the state after reset (R40, R310). -/

section
namespace Sys2Proof.Machine

open Sys2Proof

/-- A register write on a ready block of a value that does not fit the Cursor's width. -/
theorem State.hostWrite_exceeds {s : State} {n : Nat} (hready : s.ready = true) (hfits : Cfg.fits s.cfg n = false) (t : State) :
    s.hostWrite n t = .refused .exceedsCursorWidth := by
  simp [State.hostWrite, hready, hfits]

/-- A register write while the block is running or a CMD write waits. -/
theorem State.hostWrite_notReady {s : State} (hready : s.ready = false) (n : Nat) (t : State) :
    s.hostWrite n t = .refused .hostWriteWhileRunning := by
  simp [State.hostWrite, hready]

theorem State.ready_eq_false {s : State} (h : s.resting = false ∨ s.cmd ≠ none) : s.ready = false := by
  rw [Bool.eq_false_iff]
  intro hready
  obtain ⟨hrest, hcmd⟩ := s.ready_iff.1 hready
  exact h.elim (fun hr => absurd (hrest.symm.trans hr) nofun) fun hc => hc hcmd

theorem hostWriteCmd_command {s : State} {b : Byte} (hready : s.ready = true) (hb : b = 0x01 ∨ b = 0x02) :
    hostWriteCmd b s = .next { s with cmd := some b } := by
  obtain ⟨-, -, heq⟩ | ⟨hno, -⟩ := hostWriteCmd_cases b s
  · exact heq
  · exact absurd ⟨hready, hb⟩ hno

theorem hostWriteCmd_refused {s : State} {b : Byte} (h : s.resting = false ∨ s.cmd ≠ none ∨ (b ≠ 0x01 ∧ b ≠ 0x02)) :
    hostWriteCmd b s = .next s := by
  obtain ⟨hready, hb, -⟩ | ⟨-, heq⟩ := hostWriteCmd_cases b s
  · obtain ⟨hrest, hcmd⟩ := s.ready_iff.1 hready
    obtain hr | hc | ⟨h1, h2⟩ := h
    · exact absurd (hrest.symm.trans hr) nofun
    · exact absurd hcmd hc
    · exact (hb.elim h1 h2).elim
  · exact heq

/-- The byte written is read back, and no other byte changes (R60). -/
theorem hostWriteBuf_reads {s : State} {a : Nat} (b : Byte) (hready : s.ready = true) (hfits : Cfg.fits s.cfg a = true) :
    ∃ t, hostWriteBuf a b s = .next t ∧ t = { s with buf := t.buf } ∧ hostReadBuf a { t with len := a + 1 } = .ok b ∧
      ∀ x, x ≠ a → t.buf.byte x = s.buf.byte x := by
  refine ⟨_, State.hostWrite_next.2 ⟨hready, hfits, rfl⟩, rfl, ?_, fun x hx => Memory.byte_write_other _ _ hx⟩
  simp [hostReadBuf, Memory.byte_write_same]

/-- A pending DECODE on a resting block runs in the next step (R22, R314). -/
theorem step_of_decode_pending {t : State} (hcmd : t.cmd = some 0x01) (hrest : t.resting = true) :
    step t = exec .decode { t with cmd := none } :=
  (step_of_cmd_some hcmd).trans (acceptCmd_of_decode_ok hrest rfl)

/-- A loaded telegram stands in BUF and LEN with DECODE behind it, and the next step runs DECODE over it (R313). -/
theorem State.loadTelegram_loads {s : State} (bs : List Byte) (hready : s.ready = true) (hfits : Cfg.fits s.cfg bs.length = true) :
    ∃ t, s.loadTelegram bs = .next t ∧ t = { s with buf := t.buf, len := bs.length, cmd := some 0x01 } ∧
      t.buf.bytes 0 bs.length = bs ∧ (∀ x, bs.length ≤ x → t.buf.byte x = s.buf.byte x) ∧
      step t = exec .decode { t with cmd := none } :=
  ⟨_, State.hostWrite_next.2 ⟨hready, hfits, rfl⟩, rfl, Memory.bytes_writeAll _ _ _,
    fun _ hx => Memory.byte_writeAll_above _ _ (by rwa [Nat.zero_add]), step_of_decode_pending rfl (s.ready_iff.1 hready).1⟩

/-- Settles O58: a register write and the load by `State.hostWrite` on a ready block or another, a CMD write by its two cases. -/
theorem hostWrites : Obligations.HostWrites := by
  unfold Obligations.HostWrites
  intro s a n b bs
  refine ⟨fun hrest hcmd => ?_, fun h => ?_, hostWriteCmd_refused⟩
  · have hready := s.ready_iff.2 ⟨hrest, hcmd⟩
    refine ⟨hostWriteBuf_reads b hready, fun hfits => ?_, fun hfits => ?_, hostWriteCmd_command hready,
      State.loadTelegram_loads bs hready, fun hfits => State.hostWrite_exceeds hready hfits _⟩
    · exact ⟨State.hostWrite_next.2 ⟨hready, hfits, rfl⟩, State.hostWrite_next.2 ⟨hready, hfits, rfl⟩,
        State.hostWrite_next.2 ⟨hready, hfits, rfl⟩⟩
    · exact ⟨State.hostWrite_exceeds hready hfits _, State.hostWrite_exceeds hready hfits _, State.hostWrite_exceeds hready hfits _,
        State.hostWrite_exceeds hready hfits _⟩
  · have hready := State.ready_eq_false h
    exact ⟨State.hostWrite_notReady hready _ _, State.hostWrite_notReady hready _ _, State.hostWrite_notReady hready _ _,
      State.hostWrite_notReady hready _ _, State.hostWrite_notReady hready _ _⟩

/-! After reset. -/

/-- A resting block with no command pending waits (R310). -/
theorem step_of_waiting {s : State} (hcmd : s.cmd = none) (hrest : s.resting = true) : step s = .next s :=
  (step_of_cmd_none hcmd).trans (sequence_resting hrest)

theorem Slot.stateReg_eq (f : Slot) (op : Op) : (Position.field f op).stateReg =
    if f ∈ [Slot.transactionId, .groupNo, .abortOnError, .msgType] then .readEnvelope else .dispatchBody := by
  cases f <;> rfl

/-- The block rests exactly at the codes of Idle, Done and Error (R25). -/
theorem State.resting_iff_code (s : State) : s.resting = true ↔ s.seq.stateReg.code ∈ [0, 8, 9] := by
  unfold State.resting
  cases s.seq with
  | field f op =>
    rw [Slot.stateReg_eq]
    split <;> simp [Position.resting, StateReg.code]
  | _ => decide

theorem FlagReg.word_bits (f : FlagReg) : f.word.getLsbD 0 = f.crcErr ∧ f.word.getLsbD 1 = f.warn ∧ f.word.getLsbD 2 = f.finished := by
  obtain ⟨crcErr, warn, finished⟩ := f
  revert crcErr warn finished
  decide

/-- Settles O8: the reset values and the tables of codes by evaluation, the wait by `step_of_waiting`. -/
theorem resetValues : Obligations.ResetValues := by
  unfold Obligations.ResetValues
  refine ⟨rfl, rfl, rfl, rfl, rfl, rfl, rfl, rfl, rfl, fun _ => rfl, step_of_waiting rfl rfl, ?_, ?_, Slot.stateReg_eq,
    State.resting_iff_code, ?_, ?_, FlagReg.word_bits⟩
  · intro r n h
    fin_cases h <;> rfl
  · intro p r h
    fin_cases h <;> rfl
  · intro r n h
    fin_cases h <;> rfl
  · intro v n h
    fin_cases h <;> rfl

/-- Settles O9: nothing is logged, no list stands in DOC, and Idle is no place of a message. -/
theorem resetKeepsInv : Obligations.ResetKeepsInv := by
  unfold Obligations.ResetKeepsInv
  exact {
    buffer := State.reset_wf
    cursor := ⟨rfl, nofun, nofun, nofun, nofun⟩
    log := ⟨fun _ he => absurd he List.not_mem_nil, by decide, by decide⟩
    outcome := ⟨nofun, fun _ => ⟨rfl, fun _ he => absurd he List.not_mem_nil⟩⟩
    finish := ⟨rfl, nofun⟩
    entries := State.entryInv_elsewhere (fun _ hn => absurd hn List.not_mem_nil) nofun (by rintro _ _ ⟨⟩) }

end Sys2Proof.Machine
end

/-! What the host owns: BUF, LEN, the configuration, CMD and CRCOP. No row but CRC16 writes any of it (R23, R28, R29, R41, R62). -/

section
namespace Sys2Proof.Machine

open Sys2Proof

/-- The registers the host owns: the configuration, BUF, LEN, CMD and CRCOP (R22, R23, R28, R29, R60). -/
def State.hostRegs (s : State) : Cfg × Memory × Nat × Option Byte × CrcOp := (s.cfg, s.buf, s.len, s.cmd, s.crcop)

theorem State.hostRegs_eq_iff {s t : State} :
    t.hostRegs = s.hostRegs ↔ t.cfg = s.cfg ∧ t.buf = s.buf ∧ t.len = s.len ∧ t.cmd = s.cmd ∧ t.crcop = s.crcop := by
  simp [State.hostRegs]

theorem State.Keeps.hostRegs {s t : State} (h : s.Keeps t) : t.hostRegs = s.hostRegs :=
  State.hostRegs_eq_iff.2 ⟨h.cfg, h.buf, h.len, h.cmd, h.crcop⟩

/-! The shared operations. -/

theorem State.accept_hostRegs (s : State) (n : Nat) (v w : Val) : (s.accept n v w).hostRegs = s.hostRegs := by
  unfold State.accept
  split <;> rfl

theorem State.skipAbsent_hostRegs (s : State) : s.skipAbsent.hostRegs = s.hostRegs := by
  unfold State.skipAbsent
  split <;> rfl

theorem State.selectReader_hostRegs (s : State) (r : Option Op) : (s.selectReader r).hostRegs = s.hostRegs := by
  cases r <;> rfl

theorem State.compareCrc_hostRegs (s : State) (readOk : Bool) : (s.compareCrc readOk).hostRegs = s.hostRegs := by
  unfold State.compareCrc
  split <;> rfl

theorem State.verifyCrc_hostRegs (s : State) (value : Option (BitVec 16)) : (s.verifyCrc value).hostRegs = s.hostRegs := by
  cases value with
  | none => exact State.compareCrc_hostRegs (s.setEnv _) false
  | some c => exact State.compareCrc_hostRegs ((s.setEnv _).advance 3) true

theorem State.crcUnread_hostRegs (s : State) (e : ReadFail) : (s.crcUnread e).hostRegs = s.hostRegs := by
  cases e with
  | short => rfl
  | tagMismatch | badLength => exact s.verifyCrc_hostRegs none

theorem State.afterEom_hostRegs (s : State) : s.afterEom.hostRegs = s.hostRegs := by
  unfold State.afterEom
  split <;> rfl

theorem State.governed_hostRegs (s : State) (k : Check) (c : FatalCode) (w : EventCode) {next : State → State}
    (hnext : ∀ u : State, (next u).hostRegs = u.hostRegs) : (s.governed k c w next).hostRegs = s.hostRegs := by
  obtain ⟨-, heq⟩ | ⟨-, heq⟩ := s.governed_cases k c w next
  · rw [heq]; rfl
  · rw [heq, hnext]; rfl

theorem State.settle_hostRegs (s : State) (f : Slot) (op : Op) : (s.settle f op).hostRegs = s.hostRegs := by
  obtain hk | ⟨-, -, -, hk⟩ := s.settle_frame f op
  · exact hk.hostRegs
  · exact hk.hostRegs

/-! The rows. -/

theorem execBodyList_hostRegs {s t : State} (h : execBodyList s = .next t) : t.hostRegs = s.hostRegs := by
  cases h
  split
  · rfl
  · exact s.governed_hostRegs _ _ _ fun _ => rfl
  · exact s.governed_hostRegs _ _ _ fun _ => rfl
  · split
    · rfl
    · exact (s.advance 1).governed_hostRegs _ _ _ fun _ => rfl

theorem execEntry_hostRegs {s t : State} (h : execEntry s = .next t) : t.hostRegs = s.hostRegs := by
  cases h
  split
  · rfl
  · rfl
  · rfl
  · split <;> rfl

theorem execEom_hostRegs {s t : State} (h : execEom s = .next t) : t.hostRegs = s.hostRegs := by
  cases h
  split_ifs
  · rfl
  · exact (s.advance 1).afterEom_hostRegs
  · exact s.governed_hostRegs _ _ _ State.afterEom_hostRegs

theorem execEsc_hostRegs {s t : State} (h : execEsc s = .next t) : t.hostRegs = s.hostRegs := by
  cases h
  split_ifs
  · rfl
  · rfl
  · exact s.governed_hostRegs _ _ _ fun _ => rfl

theorem execEndByte_hostRegs {s t : State} (h : execEndByte s = .next t) : t.hostRegs = s.hostRegs := by
  cases h
  split_ifs
  · rfl
  · rfl
  · exact s.governed_hostRegs _ _ _ fun _ => rfl

theorem execXostr_hostRegs {s t : State} {ns : List (BitVec 4)} {b : Byte} {p : List Byte} (h : execXostr ns b p s = .next t) :
    t.hostRegs = s.hostRegs := by
  cases h
  split
  · rfl
  · exact s.accept_hostRegs _ _ _

theorem execOpt_hostRegs {s t : State} {b : Byte} (h : execOpt b s = .next t) : t.hostRegs = s.hostRegs := by
  unfold execOpt at h
  split at h
  · cases h; exact s.skipAbsent_hostRegs
  · split at h <;> (cases h; rfl)

theorem execCrc_hostRegs {s t : State} {c : BitVec 16} (h : execCrc c s = .next t) : t.hostRegs = s.hostRegs := by
  cases h
  split
  · exact s.verifyCrc_hostRegs _
  · rfl

/-- No row but CRC16 writes what the host owns. -/
theorem exec_hostRegs {i : Instr} {s t : State} (hi : i ≠ .crc16) (h : exec i s = .next t) : t.hostRegs = s.hostRegs := by
  cases i with
  | eom => exact execEom_hostRegs h
  | absent => cases h; exact s.skipAbsent_hostRegs
  | ostr | u8 | u16 | u32 | u64 | i8 | i16 | i32 | i64 | list | timeSec | timeTs | timeLocal => cases h; exact s.accept_hostRegs _ _ _
  | xostr => exact execXostr_hostRegs h
  | esc => exact execEsc_hostRegs h
  | endByte => exact execEndByte_hostRegs h
  | start => cases h; split <;> rfl
  | ver | msg | value | rdOstrAny => cases h; split_ifs <;> rfl
  | bodyList => exact execBodyList_hostRegs h
  | openRes | closeRes | getlistRes | unknownType | isOstr | ostrLen | listLen | peek => cases h; rfl
  | crc => exact execCrc_hostRegs h
  | entry => exact execEntry_hostRegs h
  | rdUnsigned | rdInteger | rdStatus => cases h; exact s.selectReader_hostRegs _
  | opt => exact execOpt_hostRegs h
  | decode => cases h; split <;> rfl
  | crc16 => exact absurd rfl hi

/-- CRC16 writes CRCOP.out at most (R165). -/
theorem execCrc16_hostRegs {s t : State} (h : execCrc16 s = .next t) :
    t.hostRegs = { s with crcop := { s.crcop with out := t.crcop.out } }.hostRegs := by
  cases h
  split <;> rfl

/-! The step. -/

theorem dispatchType_ctx (v : BitVec 16) : (dispatchType v).ctx = .messageType := by
  unfold dispatchType
  split_ifs <;> rfl

/-- What decodes in a context is a row of that context (R95). -/
theorem decode_ctx {c : Ctx} {bs : List Byte} {i : Instr} (h : decode c bs = .ok i) : i.ctx = c := by
  cases c with
  | command =>
    cases bs with
    | nil => cases h
    | cons b rest => obtain ⟨-, rfl⟩ | ⟨-, rfl⟩ := decodeCommand_cases (b := b) h <;> rfl
  | messageType => obtain ⟨v, rfl⟩ := readInto_ok h; exact dispatchType_ctx _
  | crcField => obtain ⟨v, rfl⟩ := readInto_ok h; rfl
  | lex op => exact decode_lex_ctx h
  | _ => obtain rfl := decodePattern_ok h; rfl

/-- No place of the sequencer reads a command. -/
theorem Position.ctx_ne_command (p : Position) : p.ctx ≠ some .command := by
  cases p <;> nofun

/-- The sequencer never runs CRC16: that row is the host's command alone (R112). -/
theorem ne_crc16_of_sequencer {p : Position} {c : Ctx} {bs : List Byte} {i : Instr} (hctx : p.ctx = some c)
    (hdec : decode c bs = .ok i) : i ≠ .crc16 := by
  rintro rfl
  exact p.ctx_ne_command (hctx.trans (congrArg some (decode_ctx hdec).symm))

/-- What the sequencer adds around a row that answered next writes nothing that the host owns. -/
theorem settleOut_hostRegs {p : Position} {o : Out} {t : State} (h : settleOut p o = .next t) :
    ∃ u, o = .next u ∧ t.hostRegs = u.hostRegs := by
  cases p with
  | field f op =>
    cases o with
    | next u => cases h; exact ⟨u, rfl, u.settle_hostRegs f op⟩
    | fault r | refused r => cases h
  | _ => exact ⟨t, h, rfl⟩

theorem State.unread_hostRegs {s t : State} {e : ReadFail} (h : s.unread e = .next t) : t.hostRegs = s.hostRegs := by
  unfold State.unread at h
  cases hseq : s.seq <;> simp only [hseq] at h
  case field f op => cases h; exact State.settle_hostRegs _ f op
  case crcField => cases h; exact s.crcUnread_hostRegs e
  case seekEnd | idle | done | error => cases h; rfl
  all_goals exact exec_hostRegs (by nofun) h

/-- The running sequencer writes nothing that the host owns. -/
theorem sequence_hostRegs {s t : State} (h : s.sequence = .next t) : t.hostRegs = s.hostRegs := by
  cases hctx : s.seq.ctx with
  | none =>
    simp only [State.sequence, hctx] at h
    split at h <;> (cases h; rfl)
  | some c =>
    cases hdec : decode c s.fetchBytes with
    | error e => exact State.unread_hostRegs (sequence_of_decode_error hctx hdec ▸ h)
    | ok i =>
      rw [sequence_of_decode_ok hctx hdec] at h
      obtain ⟨u, hexec, ht⟩ := settleOut_hostRegs h
      exact ht.trans (exec_hostRegs (ne_crc16_of_sequencer hctx hdec) hexec)

/-- A CMD write is taken out of CMD; only CRC16, code 02, writes CRCOP, and of it the result alone (R22, R112, R165). -/
theorem State.acceptCmd_hostRegs {s t : State} {b : Byte} (h : s.acceptCmd b = .next t) :
    t.hostRegs = s.clearCmd.hostRegs ∨
      (b = 0x02 ∧ t.hostRegs = { s.clearCmd with crcop := { s.crcop with out := t.crcop.out } }.hostRegs) := by
  unfold State.acceptCmd at h
  split at h
  · split at h
    · next i hdec =>
      obtain ⟨-, rfl⟩ | ⟨hb, rfl⟩ := decodeCommand_cases hdec
      · exact .inl (exec_hostRegs (by nofun) h)
      · exact .inr ⟨hb, execCrc16_hostRegs h⟩
    · cases h; exact .inl rfl
  · cases h; exact .inl rfl

/-- A step leaves the configuration, BUF and LEN, empties CMD, and writes CRCOP.out for a CRC16 command alone. -/
theorem step_hostRegs {s t : State} (h : step s = .next t) :
    t.hostRegs = s.clearCmd.hostRegs ∨
      (s.cmd = some 0x02 ∧ t.hostRegs = { s.clearCmd with crcop := { s.crcop with out := t.crcop.out } }.hostRegs) := by
  cases hcmd : s.cmd with
  | none =>
    rw [step_of_cmd_none hcmd] at h
    have hclear : s.clearCmd = s := by rw [State.clearCmd, ← hcmd]
    rw [hclear]
    exact .inl (sequence_hostRegs h)
  | some b =>
    rw [step_of_cmd_some hcmd] at h
    exact (State.acceptCmd_hostRegs h).imp_right fun ⟨hb, ht⟩ => ⟨congrArg some hb, ht⟩

/-- Settles O48: a row by `exec_hostRegs` and, for CRC16, `execCrc16_hostRegs`; a step by `step_hostRegs`. -/
theorem hostRegistersKept : Obligations.HostRegistersKept := by
  unfold Obligations.HostRegistersKept
  constructor
  · intro i s t h
    by_cases hi : i = .crc16
    · subst hi
      obtain ⟨hcfg, hbuf, hlen, hcmd, hcrcop⟩ := State.hostRegs_eq_iff.1 (execCrc16_hostRegs h)
      exact ⟨fun _ => by rw [hbuf], hbuf, hlen, hcfg, hcmd, by rw [hcrcop], by rw [hcrcop], fun hne => absurd rfl hne⟩
    · obtain ⟨hcfg, hbuf, hlen, hcmd, hcrcop⟩ := State.hostRegs_eq_iff.1 (exec_hostRegs hi h)
      exact ⟨fun _ => by rw [hbuf], hbuf, hlen, hcfg, hcmd, by rw [hcrcop], by rw [hcrcop], fun _ => hcrcop⟩
  · intro s t h
    obtain ht | ⟨hpending, ht⟩ := step_hostRegs h
    · obtain ⟨hcfg, hbuf, hlen, hcmd, hcrcop⟩ := State.hostRegs_eq_iff.1 ht
      exact ⟨fun _ => by rw [hbuf]; rfl, hbuf, hlen, hcfg, hcmd, by rw [hcrcop]; rfl, by rw [hcrcop]; rfl, fun _ => hcrcop⟩
    · obtain ⟨hcfg, hbuf, hlen, hcmd, hcrcop⟩ := State.hostRegs_eq_iff.1 ht
      exact ⟨fun _ => by rw [hbuf]; rfl, hbuf, hlen, hcfg, hcmd, by rw [hcrcop], by rw [hcrcop], fun hne => absurd hpending hne⟩

end Sys2Proof.Machine
end

/-! The block reads BUF below LEN only (R61, R70): with another buffer that agrees there, every operation does the same and leaves that
buffer in place. -/

section
namespace Sys2Proof.Machine

open Sys2Proof

/-- The state with `b` as BUF. -/
def State.withBuf (s : State) (b : Memory) : State := { s with buf := b }

/-- The outcome with `b` as BUF of its next state. -/
def Out.withBuf (b : Memory) : Out → Out
  | .next t => .next (t.withBuf b)
  | .fault r => .fault r
  | .refused r => .refused r

/-! What does not depend on BUF. -/

section
variable (s : State) (b : Memory)

@[simp] theorem State.withBuf_cfg : (s.withBuf b).cfg = s.cfg := rfl
@[simp] theorem State.withBuf_buf : (s.withBuf b).buf = b := rfl
@[simp] theorem State.withBuf_len : (s.withBuf b).len = s.len := rfl
@[simp] theorem State.withBuf_pos : (s.withBuf b).pos = s.pos := rfl
@[simp] theorem State.withBuf_cmd : (s.withBuf b).cmd = s.cmd := rfl
@[simp] theorem State.withBuf_seq : (s.withBuf b).seq = s.seq := rfl
@[simp] theorem State.withBuf_flags : (s.withBuf b).flags = s.flags := rfl
@[simp] theorem State.withBuf_crcop : (s.withBuf b).crcop = s.crcop := rfl
@[simp] theorem State.withBuf_env : (s.withBuf b).env = s.env := rfl
@[simp] theorem State.withBuf_entriesLeft : (s.withBuf b).entriesLeft = s.entriesLeft := rfl
@[simp] theorem State.withBuf_ret : (s.withBuf b).ret = s.ret := rfl
@[simp] theorem State.withBuf_resting : (s.withBuf b).resting = s.resting := rfl

theorem State.warnEmpty_withBuf (bs : List Byte) (c : EventCode) (f : FieldId) :
    (s.withBuf b).warnEmpty bs c f = (s.warnEmpty bs c f).withBuf b := by
  unfold State.warnEmpty
  split <;> rfl

theorem State.checkArity_withBuf (f : Slot) (n : BitVec 8) : (s.withBuf b).checkArity f n = (s.checkArity f n).withBuf b := by
  unfold State.checkArity
  split
  · rfl
  · split <;> rfl

theorem State.warnField_withBuf (f : Slot) : (s.withBuf b).warnField f = (s.warnField f).withBuf b := by
  unfold State.warnField
  split <;> rfl

theorem State.store_withBuf (f : Slot) (op : Op) (v : Val) : (s.withBuf b).store f op v = (s.store f op v).withBuf b := by
  cases f with
  | openArity | closeArity | glArity => rw [State.store, State.store]; exact s.checkArity_withBuf b _ _
  | _ => rfl

theorem State.missField_withBuf (f : Slot) : (s.withBuf b).missField f = (s.missField f).withBuf b := by
  unfold State.missField
  rw [s.warnField_withBuf b f]
  cases f <;> rfl

theorem State.nextEntry_withBuf : (s.withBuf b).nextEntry = s.nextEntry.withBuf b := by
  unfold State.nextEntry
  rw [s.withBuf_entriesLeft b]
  split <;> rfl

theorem State.nextField_withBuf (f : Slot) : (s.withBuf b).nextField f = (s.nextField f).withBuf b := by
  cases f with
  | openReqField | openServerId | glServerId => exact congrArg (State.enter · _) (s.warnEmpty_withBuf b _ _ _)
  | glValList => exact s.nextEntry_withBuf b
  | leValueSignature => exact (s.setEntriesLeft _).nextEntry_withBuf b
  | _ => rfl

theorem State.finish_withBuf (f : Slot) (op : Op) : (s.withBuf b).finish f op = (s.finish f op).withBuf b := by
  unfold State.finish
  rw [s.withBuf_ret b]
  obtain ⟨st, v⟩ := if f.dispatches then dispatched op s.ret else s.ret
  cases st with
  | short => rfl
  | absent => exact (s.return .absent v).nextField_withBuf b f
  | tagMismatch | badLength =>
    exact (congrArg (State.nextField · f) ((s.return _ v).missField_withBuf b f)).trans (State.nextField_withBuf _ b f)
  | ok => exact (congrArg (State.nextField · f) ((s.return .ok v).store_withBuf b f op v)).trans (State.nextField_withBuf _ b f)

theorem State.follow_withBuf (f : Slot) : (s.withBuf b).follow f = (s.follow f).withBuf b := by
  unfold State.follow
  rw [s.withBuf_ret b]
  cases s.ret.val with
  | select op => rfl
  | _ => exact s.nextField_withBuf b f

theorem State.afterOstrLen_withBuf (f : Slot) : (s.withBuf b).afterOstrLen f = (s.afterOstrLen f).withBuf b := by
  unfold State.afterOstrLen
  rw [s.withBuf_ret b]
  cases s.ret.val with
  | int n =>
    dsimp only
    split
    · exact (s.return _ _).finish_withBuf b f _
    · rfl
  | _ => exact s.finish_withBuf b f _

theorem State.afterListLen_withBuf (f : Slot) : (s.withBuf b).afterListLen f = (s.afterListLen f).withBuf b := by
  unfold State.afterListLen
  rw [s.withBuf_ret b]
  split
  · exact (s.return _ _).finish_withBuf b f _
  · rfl

theorem State.afterPeek_withBuf (f : Slot) : (s.withBuf b).afterPeek f = (s.afterPeek f).withBuf b := by
  unfold State.afterPeek
  rw [s.withBuf_ret b]
  split
  · exact (s.advance 1).nextField_withBuf b f
  · rfl

theorem State.afterIsOstr_withBuf (f : Slot) : (s.withBuf b).afterIsOstr f = (s.afterIsOstr f).withBuf b := by
  unfold State.afterIsOstr
  rw [s.withBuf_ret b]
  split
  · exact (s.warn _ _).nextField_withBuf b f
  · rfl

theorem State.settle_withBuf (f : Slot) (op : Op) : (s.withBuf b).settle f op = (s.settle f op).withBuf b := by
  unfold State.settle
  rw [s.withBuf_ret b]
  split
  · cases op with
    | ostrLen => exact s.afterOstrLen_withBuf b f
    | listLen => exact s.afterListLen_withBuf b f
    | peek => exact s.afterPeek_withBuf b f
    | isOstr => exact s.afterIsOstr_withBuf b f
    | opt | ostrAny | unsigned | integer | status | value => exact s.follow_withBuf b f
    | _ => exact s.finish_withBuf b f _
  · exact s.finish_withBuf b f op

theorem State.accept_withBuf (n : Nat) (v w : Val) : (s.withBuf b).accept n v w = (s.accept n v w).withBuf b := by
  unfold State.accept
  rw [State.withBuf_pos, State.withBuf_len]
  split <;> rfl

theorem State.skipAbsent_withBuf : (s.withBuf b).skipAbsent = s.skipAbsent.withBuf b := by
  unfold State.skipAbsent
  rw [State.withBuf_pos, State.withBuf_len]
  split <;> rfl

theorem State.selectReader_withBuf (r : Option Op) : (s.withBuf b).selectReader r = (s.selectReader r).withBuf b := by
  cases r <;> rfl

theorem State.governed_withBuf (k : Check) (c : FatalCode) (w : EventCode) {next : State → State}
    (hnext : ∀ u : State, next (u.withBuf b) = (next u).withBuf b) :
    (s.withBuf b).governed k c w next = (s.governed k c w next).withBuf b := by
  unfold State.governed
  rw [State.withBuf_cfg, State.withBuf_env]
  split
  · rfl
  · exact hnext (s.warn w none)

theorem State.compareCrc_withBuf (readOk : Bool) : (s.withBuf b).compareCrc readOk = (s.compareCrc readOk).withBuf b := by
  unfold State.compareCrc
  rw [State.withBuf_cfg, State.withBuf_env]
  split <;> rfl

theorem State.afterEom_withBuf : (s.withBuf b).afterEom = s.afterEom.withBuf b := by
  unfold State.afterEom
  rw [State.withBuf_flags]
  split <;> rfl

theorem State.execXostr_withBuf (ns : List (BitVec 4)) (t : Byte) (p : List Byte) :
    execXostr ns t p (s.withBuf b) = (execXostr ns t p s).withBuf b := by
  unfold execXostr
  split
  · rfl
  · exact congrArg _ (s.accept_withBuf b _ _ _)

theorem State.execValue_withBuf (v : Byte) : execValue v (s.withBuf b) = (execValue v s).withBuf b := by
  unfold execValue
  split_ifs <;> rfl

theorem State.execRdOstrAny_withBuf (v : Byte) : execRdOstrAny v (s.withBuf b) = (execRdOstrAny v s).withBuf b := by
  unfold execRdOstrAny
  split_ifs <;> rfl

theorem State.execOpt_withBuf (v : Byte) : execOpt v (s.withBuf b) = (execOpt v s).withBuf b := by
  unfold execOpt
  rw [s.withBuf_seq b]
  split
  · exact congrArg _ (s.skipAbsent_withBuf b)
  · cases s.seq.reader <;> rfl

theorem State.execDecode_withBuf : execDecode (s.withBuf b) = (execDecode s).withBuf b := by
  unfold execDecode
  rw [s.withBuf_resting b]
  split <;> rfl

end

/-! What is read of BUF. -/

/-- `b` agrees with BUF below LEN. -/
def State.SameBytes (s : State) (b : Memory) : Prop := ∀ a, a < s.len → b.byte a = s.buf.byte a

/-- States equal but for bytes of BUF at or beyond LEN are one state and another buffer that agrees below LEN. -/
theorem State.sameBelowLen_iff {s s' : State} : s.sameBelowLen s' ↔ s' = s.withBuf s'.buf ∧ s.SameBytes s'.buf := Iff.rfl

/-- A run of bytes depends on those bytes alone. -/
theorem Memory.bytes_congr {m m' : Memory} {a n : Nat} (h : ∀ x, a ≤ x → x < a + n → m.byte x = m'.byte x) :
    m.bytes a n = m'.bytes a n := by
  induction n generalizing a with
  | zero => rfl
  | succ n ih =>
    rw [Memory.bytes, Memory.bytes, h a (Nat.le_refl a) (by omega), ih fun x hx hlt => h x (by omega) (by omega)]

section
variable {s : State} {b : Memory} (h : s.SameBytes b)
include h

theorem State.SameBytes.bytes {a n : Nat} (hn : a + n ≤ s.len) : b.bytes a n = s.buf.bytes a n :=
  Memory.bytes_congr fun x _ hx => h x (by omega)

theorem State.SameBytes.bytesFrom (a : Nat) : (s.withBuf b).bytesFrom a = s.bytesFrom a :=
  Memory.bytes_congr fun x hax hx => h x (by simp only [State.withBuf_len] at hx; omega)

theorem State.SameBytes.window : (s.withBuf b).window = s.window := h.bytesFrom s.pos

theorem State.SameBytes.fetchBytes : (s.withBuf b).fetchBytes = s.fetchBytes := by
  unfold State.fetchBytes
  rw [s.withBuf_seq b]
  cases s.seq with
  | verifyHeader => exact h.bytesFrom _
  | dispatch => rfl
  | _ => exact h.window

/-! The rows that read BUF check first that the bytes are there (R61, R145). -/

theorem State.SameBytes.execStart : execStart (s.withBuf b) = (execStart s).withBuf b := by
  unfold Machine.execStart
  rw [State.withBuf_cfg, h.bytesFrom]
  split <;> rfl

theorem State.SameBytes.execVer : execVer (s.withBuf b) = (execVer s).withBuf b := by
  unfold Machine.execVer
  rw [State.withBuf_len, State.withBuf_pos, State.withBuf_buf]
  by_cases hlen : s.len < s.pos + 8
  · rw [if_pos hlen, if_pos hlen]; rfl
  · rw [if_neg hlen, if_neg hlen, h.bytes (show s.pos + 4 ≤ s.len by omega), h.bytes (show s.pos + 4 + 4 ≤ s.len by omega)]
    split <;> rfl

theorem State.SameBytes.execMsg : execMsg (s.withBuf b) = (execMsg s).withBuf b := by
  unfold Machine.execMsg
  rw [State.withBuf_flags, State.withBuf_len, State.withBuf_pos, State.withBuf_buf]
  by_cases hin : s.pos < s.len
  · rw [h s.pos hin]
    split_ifs <;> rfl
  · simp only [hin, false_and, if_false]
    split <;> rfl

theorem State.SameBytes.execBodyList : execBodyList (s.withBuf b) = (execBodyList s).withBuf b := by
  simp only [Machine.execBodyList, h.window]
  split
  · rfl
  · exact congrArg _ (s.governed_withBuf b _ _ _ fun _ => rfl)
  · exact congrArg _ (s.governed_withBuf b _ _ _ fun _ => rfl)
  · split
    · rfl
    · exact congrArg _ ((s.advance 1).governed_withBuf b _ _ _ fun _ => rfl)

theorem State.SameBytes.execEntry : execEntry (s.withBuf b) = (execEntry s).withBuf b := by
  have hwindow : (s.withBuf b).addEntry.window = s.addEntry.window := h.window
  unfold State.addEntry at hwindow
  simp only [Machine.execEntry, hwindow]
  split
  · rfl
  · rfl
  · rfl
  · split <;> rfl

/-- The checksum's range ends at the cursor, inside the buffer (R163, R233). -/
theorem State.SameBytes.verifyCrc (value : Option (BitVec 16)) (hin : s.pos ≤ s.len) :
    (s.withBuf b).verifyCrc value = (s.verifyCrc value).withBuf b := by
  have hsum : (s.withBuf b).crc16Of s.env.msgStart (s.pos - s.env.msgStart) = s.crc16Of s.env.msgStart (s.pos - s.env.msgStart) :=
    congrArg Sys2Proof.crc16 (Memory.bytes_congr fun x _ hx => h x (by omega))
  simp only [State.verifyCrc, State.withBuf_env, State.withBuf_pos, hsum]
  cases value with
  | none => exact congrArg (State.goto · _) ((s.setEnv _).compareCrc_withBuf b false)
  | some c => exact congrArg (State.goto · _) (((s.setEnv _).advance 3).compareCrc_withBuf b true)

theorem State.SameBytes.crcUnread {e : ReadFail} (hin : e ≠ .short → s.pos ≤ s.len) :
    (s.withBuf b).crcUnread e = (s.crcUnread e).withBuf b := by
  cases e with
  | short => rfl
  | tagMismatch | badLength => exact h.verifyCrc none (hin nofun)

theorem State.SameBytes.execCrc (c : BitVec 16) : execCrc c (s.withBuf b) = (execCrc c s).withBuf b := by
  unfold Machine.execCrc
  rw [State.withBuf_pos, State.withBuf_len]
  split
  · exact congrArg _ (h.verifyCrc _ (by omega))
  · rfl

theorem State.SameBytes.execEom : execEom (s.withBuf b) = (execEom s).withBuf b := by
  unfold Machine.execEom
  rw [State.withBuf_pos, State.withBuf_len, State.withBuf_buf]
  by_cases hlen : s.len ≤ s.pos
  · rw [if_pos hlen, if_pos hlen]; rfl
  · rw [if_neg hlen, if_neg hlen, h s.pos (by omega)]
    split
    · exact congrArg _ ((s.advance 1).afterEom_withBuf b)
    · exact congrArg _ (s.governed_withBuf b _ _ _ fun u => u.afterEom_withBuf b)

theorem State.SameBytes.execEsc : execEsc (s.withBuf b) = (execEsc s).withBuf b := by
  unfold Machine.execEsc
  rw [State.withBuf_pos, State.withBuf_len, State.withBuf_buf]
  by_cases hlen : s.len < s.pos + 4
  · rw [if_pos hlen, if_pos hlen]; rfl
  · rw [if_neg hlen, if_neg hlen, h.bytes (by omega)]
    split
    · rfl
    · exact congrArg _ (s.governed_withBuf b _ _ _ fun _ => rfl)

theorem State.SameBytes.execEndByte : execEndByte (s.withBuf b) = (execEndByte s).withBuf b := by
  unfold Machine.execEndByte
  rw [State.withBuf_pos, State.withBuf_len, State.withBuf_buf]
  by_cases hlen : s.len ≤ s.pos
  · rw [if_pos hlen, if_pos hlen]; rfl
  · rw [if_neg hlen, if_neg hlen, h s.pos (by omega)]
    split
    · rfl
    · exact congrArg _ (s.governed_withBuf b _ _ _ fun _ => rfl)

theorem State.SameBytes.execCrc16 : execCrc16 (s.withBuf b) = (execCrc16 s).withBuf b := by
  unfold Machine.execCrc16
  rw [State.withBuf_resting, State.withBuf_crcop, State.withBuf_len]
  split
  · next hrange =>
    have hsum : (s.withBuf b).crc16Of s.crcop.start s.crcop.len = s.crc16Of s.crcop.start s.crcop.len :=
      congrArg Sys2Proof.crc16 (h.bytes hrange.2)
    rw [hsum]; rfl
  · rfl

/-- Every row does the same with a buffer that agrees below LEN. -/
theorem State.SameBytes.exec (i : Instr) : Machine.exec i (s.withBuf b) = Out.withBuf b (Machine.exec i s) := by
  cases i with
  | eom => exact h.execEom
  | absent => exact congrArg _ (s.skipAbsent_withBuf b)
  | ostr | u8 | u16 | u32 | u64 | i8 | i16 | i32 | i64 | list | timeSec | timeTs | timeLocal =>
    exact congrArg _ (s.accept_withBuf b _ _ _)
  | xostr => exact s.execXostr_withBuf b _ _ _
  | esc => exact h.execEsc
  | endByte => exact h.execEndByte
  | start => exact h.execStart
  | ver => exact h.execVer
  | msg => exact h.execMsg
  | bodyList => exact h.execBodyList
  | openRes | closeRes | getlistRes | unknownType | isOstr | ostrLen | listLen | peek => rfl
  | crc c => exact h.execCrc c
  | entry => exact h.execEntry
  | value v => exact s.execValue_withBuf b v
  | rdOstrAny v => exact s.execRdOstrAny_withBuf b v
  | rdUnsigned | rdInteger | rdStatus => exact congrArg _ (s.selectReader_withBuf b _)
  | opt v => exact s.execOpt_withBuf b v
  | decode => exact s.execDecode_withBuf b
  | crc16 => exact h.execCrc16

/-! The step. -/

omit h in
theorem settleOut_withBuf (p : Position) (o : Out) : settleOut p (o.withBuf b) = (settleOut p o).withBuf b := by
  cases p with
  | field f op =>
    cases o with
    | next t => exact congrArg _ (t.settle_withBuf b f op)
    | _ => rfl
  | _ => rfl

omit h in
/-- A CRC field that could not be read and was not cut short has a byte inside the buffer (R145). -/
theorem State.inside_of_crcField {e : ReadFail} (hdec : decode .crcField s.window = .error e) (he : e ≠ .short) : s.pos ≤ s.len := by
  by_contra hout
  rw [State.window_nil (by omega)] at hdec
  cases hdec
  exact he rfl

theorem State.SameBytes.unread {e : ReadFail} (hin : s.seq = .crcField → e ≠ .short → s.pos ≤ s.len) :
    (s.withBuf b).unread e = (s.unread e).withBuf b := by
  unfold State.unread
  rw [s.withBuf_seq b]
  cases hseq : s.seq with
  | field f op => exact congrArg _ ((s.return _ _).settle_withBuf b f op)
  | crcField => exact congrArg _ (h.crcUnread (hin hseq))
  | seekEnd | idle | done | error => rfl
  | _ => exact h.exec _

theorem State.SameBytes.sequence : (s.withBuf b).sequence = s.sequence.withBuf b := by
  unfold State.sequence
  rw [s.withBuf_seq b, h.fetchBytes]
  cases hctx : s.seq.ctx with
  | none =>
    dsimp only
    split <;> rfl
  | some c =>
    dsimp only
    cases hdec : decode c s.fetchBytes with
    | ok i => exact (congrArg (settleOut s.seq) (h.exec i)).trans (settleOut_withBuf _ _)
    | error e =>
      refine h.unread fun hseq => State.inside_of_crcField ?_
      rw [hseq] at hctx
      cases hctx
      simpa only [State.fetchBytes, hseq] using hdec

theorem State.SameBytes.acceptCmd (v : Byte) : (s.withBuf b).acceptCmd v = (s.acceptCmd v).withBuf b := by
  have hclear : s.clearCmd.SameBytes b := h
  unfold State.acceptCmd
  rw [s.withBuf_resting b]
  split
  · cases decode .command [v] with
    | ok i => exact hclear.exec i
    | error e => rfl
  · rfl

/-- With a buffer that agrees below LEN a step does the same, and leaves that buffer in place. -/
theorem State.SameBytes.step : Machine.step (s.withBuf b) = Out.withBuf b (Machine.step s) := by
  unfold Machine.step State.stepOnce
  rw [s.withBuf_cmd b]
  cases s.cmd with
  | none => exact h.sequence
  | some v => exact h.acceptCmd v

end

/-- Settles O55: with the other buffer the step does the same (`State.SameBytes.step`), and BUF and LEN stay (`hostRegistersKept`). -/
theorem nothingReadBeyondLen : Obligations.NothingReadBeyondLen := by
  unfold Obligations.NothingReadBeyondLen
  intro s s' t t' hsame hstep hstep'
  obtain ⟨heq, hbytes⟩ := State.sameBelowLen_iff.1 hsame
  obtain ⟨-, hbuf, hlen, -⟩ := hostRegistersKept.2 s t hstep
  have ht' : t' = t.withBuf s'.buf := by
    have hrun := hbytes.step
    rw [← heq, hstep, hstep'] at hrun
    exact Host.Outcome.next.inj hrun
  have hbytes' : t.SameBytes s'.buf := fun a ha => by rw [hbuf]; exact hbytes a (hlen ▸ ha)
  rw [ht']
  exact State.sameBelowLen_iff.2 ⟨rfl, hbytes'⟩

end Sys2Proof.Machine
end

/-! The decoder against the encoder (R80 to R95, R105, R111, R112). For each part of the decoder, the bytes it accepts are the bytes the
encoder writes, with anything behind them; one such rule for each gives both directions of the round trip. -/

section
namespace Sys2Proof

/-! Bytes and parts of bytes. -/

/-- The form in which the readers give their parts (R14), against the parts one after the other. -/
theorem take_drop_iff_append {n : Nat} {bs v r : List Byte} :
    n ≤ bs.length ∧ v = bs.take n ∧ r = bs.drop n ↔ v.length = n ∧ bs = v ++ r := by
  constructor
  · rintro ⟨hn, rfl, rfl⟩
    exact ⟨List.length_take_of_le hn, (List.take_append_drop n bs).symm⟩
  · rintro ⟨rfl, rfl⟩
    simp

/-- A byte is told by its two nibbles (R80). -/
theorem eq_tlByte_iff {b : Byte} {h l : BitVec 4} : b = tlByte h l ↔ hi b = h ∧ lo b = l := by
  constructor
  · rintro rfl
    simp
  · rintro ⟨rfl, rfl⟩
    simp

/-! The readers that take several bytes: the value, its bytes, and the bytes behind it. -/

/-- `RD_NUM` accepts its tag and the big-endian bytes of a number of its width (R64, R129 to R136). -/
theorem rdNum_ok_iff_bytes {tag : Byte} {w v : Nat} {bs r : List Byte} :
    rdNum tag w bs = .ok (v, r) ↔ v < 256 ^ w ∧ bs = tag :: toBigEndian w v ++ r := by
  rw [rdNum_ok]
  constructor
  · rintro ⟨rest, rfl, hw, rfl, hr⟩
    obtain ⟨hlen, hrest⟩ := take_drop_iff_append.1 ⟨hw, rfl, hr⟩
    have hbytes := toBigEndian_ofBigEndian (rest.take w)
    have hlt := ofBigEndian_lt (rest.take w)
    rw [hlen] at hbytes hlt
    exact ⟨hlt, by rw [hbytes, List.cons_append, ← hrest]⟩
  · rintro ⟨hv, rfl⟩
    obtain ⟨hw, htake, hdrop⟩ := take_drop_iff_append.2 ⟨toBigEndian_length w v, rfl (a := toBigEndian w v ++ r)⟩
    exact ⟨toBigEndian w v ++ r, rfl, hw, by rw [← htake, ofBigEndian_toBigEndian, Nat.mod_eq_of_lt hv], hdrop⟩

/-- `RD_OSTR` accepts a TL byte of type nibble 0 and as many payload bytes as it announces (R82, R125). -/
theorem rdOstr_ok_iff_bytes {l : BitVec 4} {payload bs r : List Byte} :
    rdOstr bs = .ok ((l, payload), r) ↔ payload.length = ostrPayload l ∧ bs = tlByte 0 l :: payload ++ r := by
  rw [rdOstr_ok]
  constructor
  · rintro ⟨rest, rfl, h⟩
    obtain ⟨hlen, rfl⟩ := take_drop_iff_append.1 h
    exact ⟨hlen, rfl⟩
  · rintro ⟨hlen, rfl⟩
    exact ⟨_, rfl, take_drop_iff_append.2 ⟨hlen, rfl⟩⟩

/-- A length chain whose first byte has type nibble 8 has that byte in front of its terminal byte (R85, R126). -/
theorem chain_ne_nil {b : Byte} {rest r : List Byte} {ns : List (BitVec 4)} {t : Byte} (hb : hi b = 8)
    (hchain : lengthChain (b :: rest) = some (ns, t, r)) : ns ≠ [] := by
  rintro rfl
  obtain ⟨ht, hbytes⟩ := lengthChain_some.1 hchain
  obtain ⟨rfl, -⟩ := List.cons.inj hbytes
  exact ht hb

/-- `RD_XOSTR` accepts the bytes of a well-formed XOSTR (R85, R126). -/
theorem rdXostr_ok_iff_bytes {ns : List (BitVec 4)} {t : Byte} {payload bs r : List Byte} :
    rdXostr bs = .ok ((ns, t, payload), r) ↔ (Instr.xostr ns t payload).WellFormed ∧ bs = encode (.xostr ns t payload) ++ r := by
  constructor
  · intro h
    unfold rdXostr at h
    split at h
    · cases h
    split_ifs at h with hb
    split at h
    · cases h
    next hchain =>
      split_ifs at h with htotal
      split at h <;> cases h
      next htake =>
        obtain ⟨ht, hbytes⟩ := lengthChain_some.1 hchain
        obtain ⟨hlen, rfl⟩ := take_drop_iff_append.1 (takeBytes_ok.1 htake)
        exact ⟨⟨chain_ne_nil hb hchain, ht, Nat.le_of_not_lt htotal, hlen⟩, by simp [encode, hbytes]⟩
  · rintro ⟨⟨hns, ht, htotal, hlen⟩, rfl⟩
    obtain ⟨n, ns, rfl⟩ := List.exists_cons_of_ne_nil hns
    have hchain : lengthChain (tlByte 8 n :: (ns.map (tlByte 8) ++ t :: (payload ++ r))) = some (n :: ns, t, payload ++ r) :=
      lengthChain_some.2 ⟨ht, rfl⟩
    have htake : takeBytes (chainValue (n :: ns) t - chainLength (n :: ns)) (payload ++ r) = .ok (payload, r) :=
      takeBytes_ok.2 (take_drop_iff_append.2 ⟨hlen, rfl⟩)
    simp only [encode, List.map_cons, List.cons_append, List.append_assoc, rdXostr, hi_tlByte, if_true, hchain, Nat.not_lt.2 htotal,
      if_false, htake]

/-- `RD_NUM` of a width whose numbers are the `n`-bit words accepts its tag and a word's bytes. -/
theorem rdNum_ok_iff_word {n w v : Nat} (hn : 2 ^ n = 256 ^ w) {tag : Byte} {bs r : List Byte} :
    rdNum tag w bs = .ok (v, r) ↔ ∃ x : BitVec n, v = x.toNat ∧ bs = tag :: toBigEndian w x.toNat ++ r := by
  rw [rdNum_ok_iff_bytes, ← hn]
  constructor
  · rintro ⟨hv, rfl⟩
    exact ⟨BitVec.ofNatLT v hv, by simp, by simp⟩
  · rintro ⟨x, rfl, rfl⟩
    exact ⟨x.isLt, rfl⟩

theorem rdU8_ok_iff_byte {v : Nat} {bs r : List Byte} : rdU8 bs = .ok (v, r) ↔ ∃ b : Byte, v = b.toNat ∧ bs = 0x62 :: b :: r := by
  simp [rdU8, rdNum_ok_iff_word (n := 8) (w := 1) rfl, toBigEndian]

theorem rdU32_ok_iff_word {v : Nat} {bs r : List Byte} :
    rdU32 bs = .ok (v, r) ↔ ∃ x : BitVec 32, v = x.toNat ∧ bs = 0x65 :: toBigEndian 4 x.toNat ++ r :=
  rdNum_ok_iff_word (by decide)

/-- `RD_TIME` accepts the bytes of the three SmlTime rows (R89, R142, R143). -/
theorem rdTime_ok_iff_bytes {v : SmlTime} {bs r : List Byte} : rdTime bs = .ok (v, r) ↔ bs = encode (timeInstr v) ++ r := by
  constructor
  · intro h
    unfold rdTime at h
    split at h
    · cases h
    split_ifs at h with hb
    subst hb
    split at h
    · cases h
    next sub rest2 hsub =>
      obtain ⟨b, rfl, rfl⟩ := rdU8_ok_iff_byte.1 hsub
      split_ifs at h with h1 h2 h3
      · obtain rfl : b = 1 := BitVec.eq_of_toNat_eq h1
        split at h <;> cases h
        next hword =>
          obtain ⟨x, rfl, rfl⟩ := rdU32_ok_iff_word.1 hword
          simp [timeInstr, encode]
      · obtain rfl : b = 2 := BitVec.eq_of_toNat_eq h2
        split at h <;> cases h
        next hword =>
          obtain ⟨x, rfl, rfl⟩ := rdU32_ok_iff_word.1 hword
          simp [timeInstr, encode]
      · obtain rfl : b = 3 := BitVec.eq_of_toNat_eq h3
        cases h
        rfl
  · rintro rfl
    have hsub (b : Byte) (n : Nat) (hn : n = b.toNat) (rest : List Byte) : rdU8 (0x62 :: b :: rest) = .ok (n, rest) :=
      rdU8_ok_iff_byte.2 ⟨b, hn, rfl⟩
    have hword (x : BitVec 32) : rdU32 (0x65 :: (toBigEndian 4 x.toNat ++ r)) = .ok (x.toNat, r) :=
      rdU32_ok_iff_word.2 ⟨x, rfl, rfl⟩
    cases v with
    | secIndex x =>
      simp only [timeInstr, encode, rdTime, List.cons_append, if_true, hsub 1 1 rfl, hword, BitVec.ofNat_toNat, BitVec.setWidth_eq]
    | timestamp x =>
      simp only [timeInstr, encode, rdTime, List.cons_append, if_true, hsub 2 2 rfl, hword, BitVec.ofNat_toNat, BitVec.setWidth_eq,
        Nat.reduceEqDiff, if_false]
    | localTimestamp =>
      simp only [timeInstr, encode, rdTime, List.cons_append, List.nil_append, if_true, hsub 3 3 rfl, Nat.reduceEqDiff, if_false]

/-! The decoder's parts. -/

theorem readInto_ok_iff {α : Type} {mk : α → Instr} {x : Read α} {i : Instr} :
    readInto mk x = .ok i ↔ ∃ v r, x = .ok (v, r) ∧ i = mk v := by
  cases x with
  | error e => simp [readInto]
  | ok p =>
    obtain ⟨v, r⟩ := p
    simp [readInto, eq_comm]

/-- What a number's reader hands to a constructor: a word whose bytes stand behind the tag (R86, R87). -/
theorem readInto_rdNum_ok_iff {n w : Nat} (hn : 2 ^ n = 256 ^ w) {tag : Byte} {mk : BitVec n → Instr} {bs : List Byte} {i : Instr} :
    readInto (fun v => mk (BitVec.ofNat n v)) (rdNum tag w bs) = .ok i ↔
      ∃ x : BitVec n, i = mk x ∧ tag :: toBigEndian w x.toNat <+: bs := by
  rw [readInto_ok_iff]
  constructor
  · rintro ⟨v, r, hread, rfl⟩
    obtain ⟨x, rfl, rfl⟩ := (rdNum_ok_iff_word hn).1 hread
    exact ⟨x, by simp, List.prefix_append _ _⟩
  · rintro ⟨x, rfl, r, rfl⟩
    exact ⟨x.toNat, r, (rdNum_ok_iff_word hn).2 ⟨x, rfl, rfl⟩, by simp⟩

theorem decodePattern_ok_iff {pat bs : List Byte} {i j : Instr} : decodePattern pat i bs = .ok j ↔ j = i ∧ pat <+: bs := by
  unfold decodePattern
  split_ifs with hshort hpat
  · simp only [false_iff, not_and]
    exact fun _ hpre => absurd hpre.length_le (Nat.not_le.2 hshort)
  · simp [List.prefix_iff_eq_take, hpat, eq_comm]
  · simp [List.prefix_iff_eq_take, eq_comm (a := pat), hpat]

theorem decodeByte_ok_iff {mk : Byte → Instr} {bs : List Byte} {i : Instr} :
    decodeByte mk bs = .ok i ↔ ∃ b, i = mk b ∧ [b] <+: bs := by
  cases bs with
  | nil => simp [decodeByte]
  | cons b rest => simp [decodeByte, List.cons_prefix_cons, eq_comm]

theorem decodeNibble_ok_iff {h : BitVec 4} {mk : BitVec 4 → Instr} {bs : List Byte} {i : Instr} :
    decodeNibble h mk bs = .ok i ↔ ∃ l, i = mk l ∧ [tlByte h l] <+: bs := by
  cases bs with
  | nil => simp [decodeNibble]
  | cons b rest =>
    by_cases hb : hi b = h
    · simp [decodeNibble, List.cons_prefix_cons, eq_comm (a := tlByte _ _), eq_tlByte_iff, hb, eq_comm]
    · simp [decodeNibble, List.cons_prefix_cons, eq_comm (a := tlByte _ _), eq_tlByte_iff, hb]

theorem decodeOpt_ok_iff {bs : List Byte} {i : Instr} :
    decodeOpt bs = .ok i ↔ (i = .absent ∧ [absentMark] <+: bs) ∨ ∃ b, b ≠ absentMark ∧ i = .opt b ∧ [b] <+: bs := by
  cases bs with
  | nil => simp [decodeOpt]
  | cons b rest =>
    by_cases hb : b = absentMark
    · simp [decodeOpt, List.cons_prefix_cons, hb, eq_comm]
    · simp [decodeOpt, List.cons_prefix_cons, hb, eq_comm]

theorem decodeCommand_ok_iff {bs : List Byte} {i : Instr} :
    decodeCommand bs = .ok i ↔ (i = .decode ∧ [0x01] <+: bs) ∨ (i = .crc16 ∧ [0x02] <+: bs) := by
  cases bs with
  | nil => simp [decodeCommand]
  | cons b rest =>
    simp only [decodeCommand]
    split_ifs with h1 h2
    · simp [List.cons_prefix_cons, h1, eq_comm]
    · simp [List.cons_prefix_cons, h2, eq_comm]
    · simp only [List.cons_prefix_cons, Ne.symm h1, Ne.symm h2, false_and, and_false, or_false]

/-! The message type (R93, R232). -/

theorem encode_dispatchType (v : BitVec 16) : encode (dispatchType v) = 0x63 :: toBigEndian 2 v.toNat := by
  unfold dispatchType
  split_ifs with hopen hclose hlist
  · subst hopen; rfl
  · subst hclose; rfl
  · subst hlist; rfl
  · rfl

theorem dispatchType_wellFormed (v : BitVec 16) : (dispatchType v).WellFormed := by
  unfold dispatchType
  split_ifs with hopen hclose hlist
  · trivial
  · trivial
  · trivial
  · exact ⟨hopen, hclose, hlist⟩

theorem dispatchType_of_unknown {t : BitVec 16} (h : (Instr.unknownType t).WellFormed) : dispatchType t = .unknownType t := by
  obtain ⟨hopen, hclose, hlist⟩ := h
  rw [dispatchType, if_neg hopen, if_neg hclose, if_neg hlist]

/-! The decoder. -/

/-- What a lexer operation decodes is well-formed and stands at the front (R81). -/
theorem decodeOp_sound {op : Op} {bs : List Byte} {i : Instr} (h : decodeOp op bs = .ok i) : i.WellFormed ∧ encode i <+: bs := by
  cases op with
  | opt =>
    obtain ⟨rfl, hpre⟩ | ⟨b, hb, rfl, hpre⟩ := decodeOpt_ok_iff.1 h
    · exact ⟨trivial, hpre⟩
    · exact ⟨hb, hpre⟩
  | ostrLen | ostrAny | listLen | value | peek | isOstr =>
    obtain ⟨b, rfl, hpre⟩ := decodeByte_ok_iff.1 h
    exact ⟨trivial, hpre⟩
  | unsigned | integer | status =>
    obtain ⟨w, rfl, hpre⟩ := decodeNibble_ok_iff.1 h
    exact ⟨trivial, hpre⟩
  | ostr =>
    obtain ⟨⟨l, payload⟩, r, hread, rfl⟩ := readInto_ok_iff.1 h
    obtain ⟨hlen, rfl⟩ := rdOstr_ok_iff_bytes.1 hread
    exact ⟨hlen, List.prefix_append _ _⟩
  | xostr =>
    obtain ⟨⟨ns, t, payload⟩, r, hread, rfl⟩ := readInto_ok_iff.1 h
    obtain ⟨hwf, rfl⟩ := rdXostr_ok_iff_bytes.1 hread
    exact ⟨hwf, List.prefix_append _ _⟩
  | u8 | u16 | u32 | u64 | i8 | i16 | i32 | i64 =>
    obtain ⟨x, rfl, hpre⟩ := (readInto_rdNum_ok_iff (by decide)).1 h
    exact ⟨trivial, hpre⟩
  | list =>
    obtain ⟨n, r, hread, rfl⟩ := readInto_ok_iff.1 h
    obtain rfl := rdList_ok.1 hread
    exact ⟨trivial, List.prefix_append _ _⟩
  | time =>
    obtain ⟨v, r, hread, rfl⟩ := readInto_ok_iff.1 h
    obtain rfl := rdTime_ok_iff_bytes.1 hread
    exact ⟨by cases v <;> trivial, List.prefix_append _ _⟩

/-- What the decoder accepts in any context is well-formed and stands at the front (R81, R94). -/
theorem decode_sound {c : Ctx} {bs : List Byte} {i : Instr} (h : decode c bs = .ok i) : i.WellFormed ∧ encode i <+: bs := by
  cases c with
  | command => obtain ⟨rfl, hpre⟩ | ⟨rfl, hpre⟩ := decodeCommand_ok_iff.1 h <;> exact ⟨trivial, hpre⟩
  | messageType =>
    obtain ⟨v, rfl, hpre⟩ := (readInto_rdNum_ok_iff (mk := dispatchType) (by decide)).1 h
    exact ⟨dispatchType_wellFormed v, encode_dispatchType v ▸ hpre⟩
  | crcField =>
    obtain ⟨x, rfl, hpre⟩ := (readInto_rdNum_ok_iff (by decide)).1 h
    exact ⟨trivial, hpre⟩
  | lex op => exact decodeOp_sound h
  | seekStart | version | messageHeader | bodyList | entryHeader | eom | endEscape | endByte =>
    obtain ⟨rfl, hpre⟩ := decodePattern_ok_iff.1 h
    exact ⟨trivial, hpre⟩

/-- Bytes that begin with a well-formed instruction's encoding are read as it in its own context (R95). -/
theorem decode_of_prefix {bs : List Byte} {i : Instr} (hwf : i.WellFormed) (hpre : encode i <+: bs) : decode i.ctx bs = .ok i := by
  have htype (v : BitVec 16) (h : encode (dispatchType v) <+: bs) : decode .messageType bs = .ok (dispatchType v) :=
    (readInto_rdNum_ok_iff (mk := dispatchType) (by decide)).2 ⟨v, rfl, encode_dispatchType v ▸ h⟩
  have htime (v : SmlTime) (h : encode (timeInstr v) <+: bs) : decode (.lex .time) bs = .ok (timeInstr v) := by
    obtain ⟨r, rfl⟩ := h
    exact readInto_ok_iff.2 ⟨v, r, rdTime_ok_iff_bytes.2 rfl, rfl⟩
  cases i with
  | eom | esc | endByte | start | ver | msg | bodyList | entry => exact decodePattern_ok_iff.2 ⟨rfl, hpre⟩
  | absent => exact decodeOpt_ok_iff.2 (.inl ⟨rfl, hpre⟩)
  | opt b => exact decodeOpt_ok_iff.2 (.inr ⟨b, hwf, rfl, hpre⟩)
  | ostr l payload =>
    obtain ⟨r, rfl⟩ := hpre
    exact readInto_ok_iff.2 ⟨_, r, rdOstr_ok_iff_bytes.2 ⟨hwf, rfl⟩, rfl⟩
  | xostr ns t payload =>
    obtain ⟨r, rfl⟩ := hpre
    exact readInto_ok_iff.2 ⟨_, r, rdXostr_ok_iff_bytes.2 ⟨hwf, rfl⟩, rfl⟩
  | u8 v | u16 v | u32 v | u64 v | i8 v | i16 v | i32 v | i64 v | crc v =>
    exact (readInto_rdNum_ok_iff (by decide)).2 ⟨v, rfl, hpre⟩
  | list n =>
    obtain ⟨r, rfl⟩ := hpre
    exact readInto_ok_iff.2 ⟨n, r, rdList_ok.2 rfl, rfl⟩
  | timeSec v => exact htime (.secIndex v) hpre
  | timeTs v => exact htime (.timestamp v) hpre
  | timeLocal => exact htime .localTimestamp hpre
  | openRes => exact htype openResType hpre
  | closeRes => exact htype closeResType hpre
  | getlistRes => exact htype getlistResType hpre
  | unknownType t =>
    rw [← dispatchType_of_unknown hwf] at hpre ⊢
    exact (Machine.dispatchType_ctx t).symm ▸ htype t hpre
  | value b | rdOstrAny b | isOstr b | ostrLen b | listLen b | peek b => exact decodeByte_ok_iff.2 ⟨b, rfl, hpre⟩
  | rdUnsigned w | rdInteger w | rdStatus w => exact decodeNibble_ok_iff.2 ⟨w, rfl, hpre⟩
  | decode => exact decodeCommand_ok_iff.2 (.inl ⟨rfl, hpre⟩)
  | crc16 => exact decodeCommand_ok_iff.2 (.inr ⟨rfl, hpre⟩)

/-- Settles O1: any bytes behind an encoding leave it in front (`decode_of_prefix`). -/
theorem decodeEncode : Obligations.DecodeEncode := by
  unfold Obligations.DecodeEncode
  intro i rest hwf
  exact decode_of_prefix hwf (List.prefix_append (encode i) rest)

/-- Settles O2: the well-formedness and the bytes by `decode_sound`, the context by `decode_ctx`. -/
theorem decodeSound : Obligations.DecodeSound := by
  unfold Obligations.DecodeSound
  intro c bs i h
  obtain ⟨hwf, rest, hbytes⟩ := decode_sound h
  exact ⟨hwf, Machine.decode_ctx h, rest, hbytes.symm⟩

/-- Settles O3: the decoder is run on each of the thirteen strings. -/
theorem decodingIsRight : Obligations.DecodingIsRight := by
  unfold Obligations.DecodingIsRight
  decide

end Sys2Proof
end

/-! No behaviour is stuck (93_implementation_defined.md section 1): every row, every place and every CMD write answers a next state. -/

section
namespace Sys2Proof.Machine

open Sys2Proof

/-- Every row answers a next state; OPT after asking which byte it looks at and whether it stands at a field (R146). -/
theorem exec_answers (i : Instr) (s : State) : ∃ t, exec i s = .next t := by
  cases i with
  | opt b =>
    simp only [exec, execOpt]
    split
    · exact ⟨_, rfl⟩
    · split <;> exact ⟨_, rfl⟩
  | _ => exact ⟨_, rfl⟩

/-- The sequencer answers a next state at every place (R25). -/
theorem sequence_answers (s : State) : ∃ t, s.sequence = .next t := by
  cases hseq : s.seq with
  | field f op =>
    obtain ⟨u, -, h⟩ := sequence_field hseq
    exact ⟨_, h⟩
  | dispatch =>
    obtain ⟨v, h | h⟩ := sequence_dispatch hseq
    · exact h ▸ exec_answers (dispatchType v) s
    · exact ⟨_, h⟩
  | crcField =>
    obtain ⟨c, h⟩ | ⟨e, h⟩ := sequence_crcField hseq
    · exact ⟨_, h⟩
    · exact ⟨_, h⟩
  | seekEnd => exact ⟨_, sequence_seekEnd hseq⟩
  | idle | done | error => exact ⟨_, sequence_resting (by rw [State.resting, hseq]; rfl)⟩
  | seekStart | verifyHeader | messageLoop | bodyList | entryHeader | eom | endEscape | endByte =>
    rw [sequence_row (by rw [hseq]; rfl)]
    exact exec_answers _ s

/-- A CMD write is run or refused, and both answer a next state (R22, R314). -/
theorem acceptCmd_answers (s : State) (b : Byte) : ∃ t, s.acceptCmd b = .next t := by
  unfold State.acceptCmd
  split
  · split
    · exact exec_answers _ _
    · exact ⟨_, rfl⟩
  · exact ⟨_, rfl⟩

/-- Settles O47: a pending CMD write by `acceptCmd_answers`, else the sequencer by `sequence_answers`. -/
theorem stepAlwaysAnswers : Obligations.StepAlwaysAnswers := by
  unfold Obligations.StepAlwaysAnswers
  intro s
  cases hcmd : s.cmd with
  | none => exact step_of_cmd_none hcmd ▸ sequence_answers s
  | some b => exact step_of_cmd_some hcmd ▸ acceptCmd_answers s b

end Sys2Proof.Machine
end

/-! Extended octet strings (R126, R128): the number a chain of nibbles stands for, the shortest chain, and the row XOSTR. -/

section
namespace Sys2Proof

/-! Numbers and their nibbles (R67, R85). -/

/-- The type nibble is the byte divided by 16 (R80). -/
theorem hi_toNat (b : Byte) : (hi b).toNat = b.toNat / 16 := by
  revert b; decide

/-- The length nibble is the byte modulo 16 (R80). -/
theorem lo_toNat (b : Byte) : (lo b).toNat = b.toNat % 16 := by
  revert b; decide

theorem hi_eq_iff {b : Byte} {h : BitVec 4} : hi b = h ↔ b.toNat / 16 = h.toNat := by
  rw [← hi_toNat, BitVec.toNat_inj]

/-- `acc` of R126, folded from the left, is the number that the nibbles stand for. -/
theorem chainValue_eq_ofNibbles (ns : List (BitVec 4)) (t : Byte) : chainValue ns t = Machine.ofNibbles (ns ++ [lo t]) := by
  have fold_eq (ms : List (BitVec 4)) (acc : Nat) :
      ms.foldl (fun acc n => acc * 16 + n.toNat) acc = acc * 16 ^ ms.length + Machine.ofNibbles ms := by
    induction ms generalizing acc with
    | nil => simp [Machine.ofNibbles]
    | cons m ms ih =>
      rw [List.foldl_cons, ih, Machine.ofNibbles, List.length_cons, Nat.pow_succ]
      ring
  rw [chainValue, fold_eq, Nat.zero_mul, Nat.zero_add]

/-! The number of length bytes (R128). -/

theorem le_xlenCountFrom (n fuel k : Nat) : k ≤ xlenCountFrom n fuel k := by
  fun_induction xlenCountFrom n fuel k with
  | case1 => exact Nat.le_refl _
  | case2 => exact Nat.le_refl _
  | case3 _ _ _ ih => exact Nat.le_of_succ_le ih

/-- The search passes only counts that are too small. -/
theorem pow_le_of_lt_xlenCountFrom {n fuel k j : Nat} (hk : k ≤ j) (hj : j < xlenCountFrom n fuel k) : 16 ^ j ≤ n + j := by
  fun_induction xlenCountFrom n fuel k with
  | case1 => omega
  | case2 => omega
  | case3 k fuel hsmall ih =>
    obtain rfl | hlt := Nat.eq_or_lt_of_le hk
    · exact Nat.le_of_not_lt hsmall
    · exact ih hlt hj

/-- The search ends at a count that is large enough, where its last candidate is. -/
theorem lt_pow_xlenCountFrom {n fuel k : Nat} (h : n + (k + fuel) < 16 ^ (k + fuel)) :
    n + xlenCountFrom n fuel k < 16 ^ xlenCountFrom n fuel k := by
  fun_induction xlenCountFrom n fuel k with
  | case1 => exact h
  | case2 _ _ hlarge => exact hlarge
  | case3 k fuel _ ih => exact ih (by rwa [Nat.add_right_comm, Nat.add_assoc] at *)

theorem two_le_xlenCount (n : Nat) : 2 ≤ xlenCount n := le_xlenCountFrom _ _ _

theorem pow_le_of_lt_xlenCount {n j : Nat} (h2 : 2 ≤ j) (hj : j < xlenCount n) : 16 ^ j ≤ n + j := pow_le_of_lt_xlenCountFrom h2 hj

theorem lt_pow_xlenCount (n : Nat) : n + xlenCount n < 16 ^ xlenCount n := by
  have hlast : n + 3 < 16 ^ (n + 3) := Nat.lt_pow_self (by decide)
  refine lt_pow_xlenCountFrom ?_
  rw [show 2 + (n + 2) = n + 3 + 1 by omega, Nat.pow_succ]
  omega

/-- The count is the least one that is large enough. -/
theorem xlenCount_eq {n k : Nat} (h2 : 2 ≤ k) (hlarge : n + k < 16 ^ k) (hsmall : ∀ j, 2 ≤ j → j < k → 16 ^ j ≤ n + j) :
    xlenCount n = k := by
  obtain hlt | heq | hgt := Nat.lt_trichotomy (xlenCount n) k
  · exact absurd (lt_pow_xlenCount n) (Nat.not_lt.2 (hsmall _ (two_le_xlenCount n) hlt))
  · exact heq
  · exact absurd hlarge (Nat.not_lt.2 (pow_le_of_lt_xlenCount h2 hgt))

theorem xlenCount_eq_two {n : Nat} (h : n ≤ 253) : xlenCount n = 2 :=
  xlenCount_eq (Nat.le_refl 2) (by omega) fun j h2 hj => by omega

theorem xlenCount_eq_three {n : Nat} (h : 253 < n) (h' : n ≤ 4092) : xlenCount n = 3 :=
  xlenCount_eq (by decide) (by omega) fun j h2 hj => by
    obtain rfl : j = 2 := by omega
    omega

theorem xlenCount_eq_four {n : Nat} (h : 4092 < n) (h' : n ≤ 65531) : xlenCount n = 4 :=
  xlenCount_eq (by decide) (by omega) fun j h2 hj => by
    obtain rfl | rfl : j = 2 ∨ j = 3 := by omega
    · omega
    · omega

/-! The length bytes of `XLEN` (R128). -/

/-- The nibbles that `xlenHead` writes. -/
def xlenNibbles (total : Nat) : Nat → List (BitVec 4)
  | 0 => []
  | j + 1 => BitVec.ofNat 4 (total / 16 ^ (j + 1)) :: xlenNibbles total j

theorem xlenHead_eq_map (total j : Nat) : xlenHead total j = (xlenNibbles total j).map (tlByte 8) := by
  induction j with
  | zero => rfl
  | succ j ih => rw [xlenHead, xlenNibbles, List.map_cons, ih]

@[simp] theorem xlenNibbles_length (total j : Nat) : (xlenNibbles total j).length = j := by
  induction j with
  | zero => rfl
  | succ j ih => rw [xlenNibbles, List.length_cons, ih]

theorem xlenNibbles_getElem? {total j i : Nat} (h : i < j) :
    (xlenNibbles total j)[i]? = some (BitVec.ofNat 4 (total / 16 ^ (j - i))) := by
  induction j generalizing i with
  | zero => omega
  | succ j ih =>
    cases i with
    | zero => rfl
    | succ i => rw [xlenNibbles, List.getElem?_cons_succ, ih (by omega), Nat.add_sub_add_right]

/-- The nibbles above the lowest one and the lowest one stand for the number. -/
theorem ofNibbles_xlenNibbles (total j : Nat) :
    Machine.ofNibbles (xlenNibbles total j ++ [BitVec.ofNat 4 total]) = total % 16 ^ (j + 1) := by
  induction j with
  | zero => simp [xlenNibbles, Machine.ofNibbles]
  | succ j ih =>
    rw [xlenNibbles, List.cons_append, Machine.ofNibbles, ih, List.length_append, xlenNibbles_length, List.length_singleton,
      BitVec.toNat_ofNat, Nat.mod_pow_succ (b := 16) (k := j + 1)]
    ring

/-- The last length byte of `XLEN` for a payload of `n` bytes. -/
def xlenLast (n : Nat) : Byte := tlByte 0 (BitVec.ofNat 4 (n + xlenCount n))

/-- The nibbles of the length bytes in front of it. -/
def xlenChain (n : Nat) : List (BitVec 4) := xlenNibbles (n + xlenCount n) (xlenCount n - 1)

theorem xlen_eq (n : Nat) : xlen n = (xlenChain n).map (tlByte 8) ++ [xlenLast n] := by
  rw [xlen, xlenHead_eq_map]
  rfl

theorem xlenChain_length (n : Nat) : (xlenChain n).length + 1 = xlenCount n := by
  have := two_le_xlenCount n
  rw [xlenChain, xlenNibbles_length]
  omega

theorem xlen_length (n : Nat) : (xlen n).length = xlenCount n := by
  rw [xlen_eq, List.length_append, List.length_map, List.length_singleton, xlenChain_length]

theorem xlen_getElem? {n j : Nat} (h : j < xlenCount n) :
    (xlen n)[j]? = some (tlByte (if j + 1 < xlenCount n then 8 else 0)
      (BitVec.ofNat 4 ((n + xlenCount n) / 16 ^ (xlenCount n - 1 - j)))) := by
  have hlen := xlenChain_length n
  rw [xlen_eq]
  split_ifs with hhead
  · have hj : j < xlenCount n - 1 := by omega
    rw [List.getElem?_append_left (by rw [List.length_map]; omega), List.getElem?_map, xlenChain, xlenNibbles_getElem? hj]
    rfl
  · obtain rfl : j = (xlenChain n).length := by omega
    have hlast : xlenCount n - 1 - (xlenChain n).length = 0 := by omega
    rw [hlast, Nat.pow_zero, Nat.div_one, List.getElem?_append_right (by rw [List.length_map]), List.length_map, Nat.sub_self]
    rfl

/-- The chain of `XLEN` stands for the payload and the length bytes together. -/
theorem xlen_chainValue (n : Nat) : chainValue (xlenChain n) (xlenLast n) = n + xlenCount n := by
  have h2 := two_le_xlenCount n
  rw [chainValue_eq_ofNibbles, xlenLast, lo_tlByte, xlenChain, ofNibbles_xlenNibbles, Nat.sub_add_cancel (by omega),
    Nat.mod_eq_of_lt (lt_pow_xlenCount n)]

/-- `XLEN` and its payload are a well-formed XOSTR. -/
theorem xlen_wellFormed (payload : List Byte) :
    (Instr.xostr (xlenChain payload.length) (xlenLast payload.length) payload).WellFormed := by
  have h2 := two_le_xlenCount payload.length
  have hlen := xlenChain_length payload.length
  have hvalue := xlen_chainValue payload.length
  refine ⟨List.ne_nil_of_length_pos (by omega), by rw [xlenLast, hi_tlByte]; decide, ?_, ?_⟩
  · rw [chainLength]; omega
  · rw [chainLength]; omega

theorem encode_xlen (payload : List Byte) :
    encode (.xostr (xlenChain payload.length) (xlenLast payload.length) payload) = xlen payload.length ++ payload := by
  rw [encode, xlen_eq, List.append_assoc, List.singleton_append]

end Sys2Proof

namespace Sys2Proof.Machine

open Sys2Proof

/-! The row XOSTR (R126). -/

/-- Without a byte of another type nibble the buffer ends inside the chain. -/
theorem lengthChain_none {bs : List Byte} (h : ∀ b ∈ bs, hi b = 8) : lengthChain bs = none := by
  induction bs with
  | nil => rfl
  | cons b rest ih =>
    obtain ⟨hb, hrest⟩ := List.forall_mem_cons.1 h
    rw [lengthChain, if_pos hb, ih hrest]
    rfl

theorem decode_xostr_of_ne {b : Byte} (rest : List Byte) (hb : hi b ≠ 8) : decode (.lex .xostr) (b :: rest) = .error .tagMismatch := by
  simp only [decode, decodeOp, rdXostr, hb, if_false, readInto]

theorem decode_xostr_unended {bs : List Byte} (h : ∀ b ∈ bs, hi b = 8) : decode (.lex .xostr) bs = .error .short := by
  cases bs with
  | nil => rfl
  | cons b rest =>
    have hb : hi b = 8 := h b List.mem_cons_self
    simp only [decode, decodeOp, rdXostr, hb, if_true, lengthChain_none h, readInto]

section
variable {chain : List (BitVec 4)} {terminal : Byte}

/-- Behind a whole chain `RD_XOSTR` fails on the chain's number or on the payload it announces. -/
theorem rdXostr_of_chain (hchain : chain ≠ []) (ht : hi terminal ≠ 8) (rest : List Byte) :
    rdXostr (chain.map (tlByte 8) ++ terminal :: rest) =
      if ofNibbles (chain ++ [lo terminal]) < chain.length + 1 then .error .badLength
      else (takeBytes (ofNibbles (chain ++ [lo terminal]) - (chain.length + 1)) rest).map fun (payload, r) =>
        ((chain, terminal, payload), r) := by
  obtain ⟨n, ns, rfl⟩ := List.exists_cons_of_ne_nil hchain
  have hread : lengthChain (tlByte 8 n :: (ns.map (tlByte 8) ++ terminal :: rest)) = some (n :: ns, terminal, rest) :=
    lengthChain_some.2 ⟨ht, rfl⟩
  simp only [List.map_cons, List.cons_append, rdXostr, hi_tlByte, if_true, hread, chainValue_eq_ofNibbles, chainLength]
  split_ifs with htotal
  · rfl
  · cases takeBytes (ofNibbles (n :: (ns ++ [lo terminal])) - ((n :: ns).length + 1)) rest <;> rfl

theorem decode_xostr_badLength (hchain : chain ≠ []) (ht : hi terminal ≠ 8) (rest : List Byte)
    (h : ofNibbles (chain ++ [lo terminal]) < chain.length + 1) :
    decode (.lex .xostr) (chain.map (tlByte 8) ++ terminal :: rest) = .error .badLength := by
  simp only [decode, decodeOp, rdXostr_of_chain hchain ht, h, if_true, readInto]

theorem decode_xostr_short (hchain : chain ≠ []) (ht : hi terminal ≠ 8) {rest : List Byte}
    (h : chain.length + 1 ≤ ofNibbles (chain ++ [lo terminal]))
    (hshort : rest.length < ofNibbles (chain ++ [lo terminal]) - (chain.length + 1)) :
    decode (.lex .xostr) (chain.map (tlByte 8) ++ terminal :: rest) = .error .short := by
  simp only [decode, decodeOp, rdXostr_of_chain hchain ht, Nat.not_lt.2 h, if_false, takeBytes, hshort, if_true, Except.map, readInto]

theorem decode_xostr_whole (hchain : chain ≠ []) (ht : hi terminal ≠ 8) {rest : List Byte}
    (h : chain.length + 1 ≤ ofNibbles (chain ++ [lo terminal]))
    (hwhole : ofNibbles (chain ++ [lo terminal]) - (chain.length + 1) ≤ rest.length) :
    decode (.lex .xostr) (chain.map (tlByte 8) ++ terminal :: rest) =
      .ok (.xostr chain terminal (rest.take (ofNibbles (chain ++ [lo terminal]) - (chain.length + 1)))) := by
  simp only [decode, decodeOp, rdXostr_of_chain hchain ht, Nat.not_lt.2 h, if_false, takeBytes, Nat.not_lt.2 hwhole, Except.map, readInto]

end

theorem exec_xostr_inside {s : State} {chain : List (BitVec 4)} {terminal : Byte} {payload : List Byte}
    (htotal : chain.length + 1 ≤ ofNibbles (chain ++ [lo terminal])) (hin : s.pos + (chain.length + 1 + payload.length) ≤ s.len) :
    exec (.xostr chain terminal payload) s =
      .next { s with pos := s.pos + (chain.length + 1 + payload.length), ret := { status := .ok, val := .octets payload } } := by
  have hlarge : ¬ chainValue chain terminal < chain.length + 1 := by rw [chainValue_eq_ofNibbles]; omega
  simp only [exec, execXostr, chainLength, hlarge, if_false, State.accept_inside hin]

theorem exec_xostr_badLength (s : State) {chain : List (BitVec 4)} {terminal : Byte} (payload : List Byte)
    (htotal : ofNibbles (chain ++ [lo terminal]) < chain.length + 1) :
    exec (.xostr chain terminal payload) s = .next { s with ret := { status := .badLength, val := .octets [] } } := by
  have hsmall : chainValue chain terminal < chain.length + 1 := by rwa [chainValue_eq_ofNibbles]
  simp only [exec, execXostr, chainLength, hsmall, if_true]
  rfl

/-- Settles O12: the end of the buffer, the first type nibble and the chain one after the other, then the row. -/
theorem extendedOctetString : Obligations.ExtendedOctetString := by
  unfold Obligations.ExtendedOctetString
  refine ⟨fun s => ⟨fun hend => ?_, fun hin hb => ?_, fun _ hall => decode_xostr_unended hall, ?_⟩, fun s chain terminal payload => ?_⟩
  · rw [State.window_nil hend, decode_lex_nil]
  · rw [State.window_cons hin, decode_xostr_of_ne _ hb]
  · rintro chain terminal rest _ hchain ht hbytes rfl
    rw [hbytes]
    exact ⟨decode_xostr_badLength hchain ht rest, decode_xostr_short hchain ht, decode_xostr_whole hchain ht⟩
  · exact ⟨exec_xostr_inside, exec_xostr_badLength s payload⟩

/-- Settles O4: the count by `xlenCount_eq`, the bytes by `xlen_getElem?`, and the read because they are the encoding of a well-formed
XOSTR (`xlen_wellFormed`), which the decoder reads back. -/
theorem extendedLengthRoundTrip : Obligations.ExtendedLengthRoundTrip := by
  unfold Obligations.ExtendedLengthRoundTrip
  intro payload
  refine ⟨two_le_xlenCount _, lt_pow_xlenCount _, fun j => pow_le_of_lt_xlenCount, xlen_length _, fun j => xlen_getElem?,
    xlenCount_eq_two, xlenCount_eq_three, xlenCount_eq_four, fun s rest hbytes => ?_⟩
  have hlen := xlenChain_length payload.length
  have hvalue := xlen_chainValue payload.length
  have hwindow := congrArg List.length hbytes
  rw [State.window_length, List.length_append, List.length_append, xlen_length] at hwindow
  rw [chainValue_eq_ofNibbles] at hvalue
  refine ⟨xlenChain payload.length, xlenLast payload.length, ?_, ?_⟩
  · exact decode_of_prefix (xlen_wellFormed payload) ⟨rest, by rw [encode_xlen, hbytes]⟩
  · have htotal : (xlenChain payload.length).length + 1 + payload.length = payload.length + xlenCount payload.length := by omega
    rw [exec_xostr_inside (by omega) (by omega), htotal]

end Sys2Proof.Machine
end

/-! The Primitive Lexer's rows (40_primitive_lexer.md): what the bytes at the cursor decode to, case by case, and what each row does at
any operand. -/

section
namespace Sys2Proof.Machine

open Sys2Proof

theorem decode_lex_end {s : State} (op : Op) (h : s.len ≤ s.pos) : decode (.lex op) s.window = .error .short := by
  rw [State.window_nil h, decode_lex_nil]

/-! The fixed-width readers (R129 to R136). -/

/-- The big-endian number of a run of bytes of BUF is `MemRead` (R14, R64). -/
theorem ofBigEndian_bytes (s : State) (a n : Nat) : ofBigEndian (s.buf.bytes a n) = s.memRead a n := by
  induction n generalizing a with
  | zero => rfl
  | succ n ih => rw [Memory.bytes, ofBigEndian_cons, Memory.bytes_length, ih, State.memRead]

theorem memRead_lt (s : State) (a n : Nat) : s.memRead a n < 256 ^ n := by
  have h := ofBigEndian_lt (s.buf.bytes a n)
  rwa [ofBigEndian_bytes, Memory.bytes_length] at h

/-- An operation that decodes by `RD_NUM` and whose row accepts the tag and the value is the whole of `RD_NUM` (R145). -/
theorem readsNumber_of_rdNum {op : Op} {tag : Byte} {w : Nat} {mk : Nat → Instr} {val : Nat → Val} {ones : Val}
    (hones : sentinelOf op = ones) (hdec : ∀ bs, decode (.lex op) bs = readInto mk (rdNum tag w bs))
    (hexec : ∀ n s, exec (mk n) s = .next (s.accept (1 + w) (val n) (sentinelOf op))) : ReadsNumber op tag w mk val ones := by
  subst hones
  refine ⟨rfl, fun s => ⟨decode_lex_end op, fun hin htag => ?_, fun hin htag hcut => ?_, fun hin htag => ?_, fun n hin => ?_,
    fun n hout => ?_⟩⟩
  · rw [hdec, State.window_cons hin, rdNum, if_neg htag, readInto]
  · have hshort : (s.bytesFrom (s.pos + 1)).length < w := by rw [State.bytesFrom_length]; omega
    rw [hdec, State.window_cons hin, rdNum, if_pos htag, if_pos hshort, readInto]
  · have hwhole : ¬ (s.bytesFrom (s.pos + 1)).length < w := by rw [State.bytesFrom_length]; omega
    rw [hdec, State.window_cons (by omega), rdNum, if_pos htag, if_neg hwhole, State.bytesFrom_take hin, ofBigEndian_bytes, readInto]
  · rw [hexec, State.accept_inside (by omega), Nat.add_assoc]
  · rw [hexec, State.accept_outside (by omega)]

/-- Settles O10: each of the eight readers is `RD_NUM` by its definition. -/
theorem fixedWidthReaders : Obligations.FixedWidthReaders := by
  unfold Obligations.FixedWidthReaders
  refine ⟨?_, ?_, ?_, ?_, ?_, ?_, ?_, ?_⟩ <;> exact readsNumber_of_rdNum rfl (fun _ => rfl) fun _ _ => rfl

/-! Short octet strings (R125). -/

theorem hi_eq_zero_iff {b : Byte} : hi b = 0 ↔ b.toNat < 16 := by
  rw [hi_eq_iff]
  exact Nat.div_eq_zero_iff_lt (by decide)

theorem ostrPayload_lo {b : Byte} (h : b.toNat < 16) : ostrPayload (lo b) = b.toNat - 1 := by
  rw [ostrPayload, lo_toNat, Nat.mod_eq_of_lt h]

section
variable {s : State} (hin : s.pos < s.len)
include hin

theorem decode_ostr_mismatch (h : 16 ≤ (s.buf.byte s.pos).toNat) : decode (.lex .ostr) s.window = .error .tagMismatch := by
  have hhi : ¬ hi (s.buf.byte s.pos) = 0 := fun h0 => Nat.not_lt.2 h (hi_eq_zero_iff.1 h0)
  simp only [State.window_cons hin, decode, decodeOp, rdOstr, hhi, if_false, readInto]

theorem decode_ostr_short (h : (s.buf.byte s.pos).toNat < 16) (hcut : s.len < s.pos + 1 + ((s.buf.byte s.pos).toNat - 1)) :
    decode (.lex .ostr) s.window = .error .short := by
  have hshort : (s.bytesFrom (s.pos + 1)).length < (s.buf.byte s.pos).toNat - 1 := by rw [State.bytesFrom_length]; omega
  simp only [State.window_cons hin, decode, decodeOp, rdOstr, hi_eq_zero_iff.2 h, if_true, ostrPayload_lo h, hshort, readInto]

theorem decode_ostr_whole (h : (s.buf.byte s.pos).toNat < 16) (hwhole : s.pos + 1 + ((s.buf.byte s.pos).toNat - 1) ≤ s.len) :
    decode (.lex .ostr) s.window =
      .ok (.ostr (lo (s.buf.byte s.pos)) (s.buf.bytes (s.pos + 1) ((s.buf.byte s.pos).toNat - 1))) := by
  have hfits : ¬ (s.bytesFrom (s.pos + 1)).length < (s.buf.byte s.pos).toNat - 1 := by rw [State.bytesFrom_length]; omega
  simp only [State.window_cons hin, decode, decodeOp, rdOstr, hi_eq_zero_iff.2 h, if_true, ostrPayload_lo h, hfits, if_false, readInto,
    State.bytesFrom_take hwhole]

end

/-- Settles O11: the end of the buffer, the type nibble and the payload one after the other, then the row. -/
theorem shortOctetString : Obligations.ShortOctetString := by
  unfold Obligations.ShortOctetString
  intro s
  refine ⟨decode_lex_end .ostr, decode_ostr_mismatch, ?_, fun l payload hin => ?_, fun l payload hout => ?_⟩
  · rintro _ hin hnibble rfl
    exact ⟨decode_ostr_short hin hnibble, decode_ostr_whole hin hnibble⟩
  · simp only [exec, execOstr]
    rw [State.accept_inside (by omega), Nat.add_assoc]
  · simp only [exec, execOstr]
    rw [State.accept_outside (by omega)]
    rfl

/-! List headers (R141). -/

theorem decode_list_cons (b : Byte) (rest : List Byte) :
    decode (.lex .list) (b :: rest) = if b.toNat / 16 = 7 then .ok (.list (lo b)) else .error .tagMismatch := by
  simp only [decode, decodeOp, rdList, hi_eq_iff (b := b) (h := 7), BitVec.reduceToNat]
  split_ifs <;> rfl

/-- Settles O15: the end of the buffer and the type nibble (`decode_list_cons`), then the row. -/
theorem listHeader : Obligations.ListHeader := by
  unfold Obligations.ListHeader
  intro s
  refine ⟨decode_lex_end .list, fun hin hne => ?_, fun hin heq => ?_, fun n hin => ?_, fun n hout => ?_⟩
  · rw [State.window_cons hin, decode_list_cons, if_neg hne]
  · rw [State.window_cons hin, decode_list_cons, if_pos heq]
  · exact congrArg Host.Outcome.next (State.accept_inside hin _ _)
  · exact congrArg Host.Outcome.next (State.accept_outside (Nat.not_le.2 hout) _ _)

/-! Recognisers and PEEK (R123, R124, R140, R144). -/

theorem isOstr_eq (b : Byte) : isOstr b = decide (b.toNat / 16 = 0) := by
  rw [isOstr, Bool.eq_iff_iff, beq_iff_eq, decide_eq_true_iff, hi_eq_iff]
  rfl

theorem ostrLen_eq (b : Byte) :
    ostrLen b = if b.toNat / 16 ≠ 0 then -1 else if b = 0x00 then 0 else (b.toNat % 16 : Int) - 1 := by
  rw [ostrLen, lo_toNat, ite_not]
  exact if_congr hi_eq_iff rfl rfl

theorem listLen_eq (b : Byte) : listLen b = if b.toNat / 16 = 7 then BitVec.ofNat 8 (b.toNat % 16) else 0xFF := by
  have hlow : (lo b).zeroExtend 8 = BitVec.ofNat 8 (b.toNat % 16) := by rw [← lo_toNat, BitVec.ofNat_toNat]
  rw [listLen, hlow]
  exact if_congr hi_eq_iff rfl rfl

/-- Settles O13: each recogniser's value at any byte, and PEEK's one byte. -/
theorem recognisersAndPeek : Obligations.RecognisersAndPeek := by
  unfold Obligations.RecognisersAndPeek
  intro s
  refine ⟨fun b => ⟨?_, ?_, ?_, rfl⟩, decode_lex_end .peek, fun hin => ?_⟩
  · rw [← isOstr_eq]; rfl
  · rw [← ostrLen_eq]; rfl
  · rw [← listLen_eq]; rfl
  · rw [State.window_cons hin]; rfl

/-! Dispatching readers (R127, R137 to R139). -/

theorem exec_rdOstrAny (s : State) (b : Byte) :
    exec (.rdOstrAny b) s = .next { s with
      ret := if b.toNat / 16 = 0 then { status := .ok, val := .select .ostrLen }
        else if b.toNat / 16 = 8 then { status := .ok, val := .select .xostr }
        else { status := .tagMismatch, val := .octets [] } } := by
  simp only [exec, execRdOstrAny, hi_eq_iff, BitVec.reduceToNat]
  split_ifs <;> rfl

/-- Settles O14: RD_STATUS selects as RD_UNSIGNED does (R139). -/
theorem dispatchingReaders : Obligations.DispatchingReaders := by
  unfold Obligations.DispatchingReaders
  intro s
  refine ⟨exec_rdOstrAny s, ?_, fun w => ?_⟩
  · rintro w _ rfl
    have hstatus : exec (.rdStatus w) s = exec (.rdUnsigned w) s := rfl
    rw [hstatus, and_self]
    simp only [exec, execRdUnsigned, unsignedReader]
    split_ifs <;> rfl
  · simp only [exec, execRdInteger, integerReader]
    split_ifs <;> rfl

end Sys2Proof.Machine
end

/-! The step at a field, by what the bytes there decode to: a selected reader is next (R127, R137 to R139, R146), a number is taken (R180),
a failed read is fatal or warns and goes on (R180, R182). -/

section
namespace Sys2Proof.Machine

open Sys2Proof

section
variable {s : State} {f : Slot} {op : Op} (hcmd : s.cmd = none) (hseq : s.seq = .field f op)
include hcmd hseq

theorem step_field_ok {i : Instr} {t : State} (hdec : decode (.lex op) s.window = .ok i) (hexec : exec i s = .next t) :
    step s = .next (t.settle f op) := by
  have hbytes : s.fetchBytes = s.window := by simp only [State.fetchBytes, hseq]
  rw [step_of_decode_ok hcmd (by rw [hseq]; rfl) (hbytes ▸ hdec), hexec, hseq, settleOut_field_next]

theorem step_field_error {e : ReadFail} (hdec : decode (.lex op) s.window = .error e) :
    step s = .next ((s.return (failStatus e) (sentinelAt f op)).finish f op) := by
  have hbytes : s.fetchBytes = s.window := by simp only [State.fetchBytes, hseq]
  have hfailed : ¬ (s.return (failStatus e) (sentinelAt f op)).ret.status = .ok := by cases e <;> nofun
  rw [step_of_cmd_none hcmd, sequence_of_decode_error (by rw [hseq]; rfl) (hbytes ▸ hdec), State.unread, hseq]
  simp only [State.settle, if_neg hfailed]

/-- The operations that select the field's next operation (R127, R137 to R139, R146, R201) leave the cursor and go there. -/
theorem step_field_select {i : Instr} {op' : Op} (hop : op ∈ [Op.opt, .ostrAny, .unsigned, .integer, .status, .value])
    (hdec : decode (.lex op) s.window = .ok i) (hexec : exec i s = .next { s with ret := { status := .ok, val := .select op' } }) :
    step s = .next { s with seq := .field f op', ret := { status := .ok, val := .select op' } } := by
  rw [step_field_ok hcmd hseq hdec hexec]
  simp only [List.mem_cons, List.not_mem_nil, or_false] at hop
  rcases hop with rfl | rfl | rfl | rfl | rfl | rfl <;> rfl

end

/-! The optional-field convention (R146). -/

theorem decode_opt_cons (b : Byte) (rest : List Byte) :
    decode (.lex .opt) (b :: rest) = .ok (if b = 0x01 then .absent else .opt b) := rfl

/-- OPT calls the reader of the field it stands at. -/
theorem exec_opt {s : State} {f : Slot} {op : Op} {b : Byte} (hseq : s.seq = .field f op) (hb : b ≠ 0x01) :
    exec (.opt b) s = .next { s with ret := { status := .ok, val := .select f.reader } } := by
  have hreader : s.seq.reader = some f.reader := by rw [hseq]; rfl
  simp only [exec, execOpt, absentMark, hb, if_false, hreader]
  rfl

theorem step_opt {s : State} {f : Slot} (hcmd : s.cmd = none) (hseq : s.seq = .field f .opt) (hin : s.pos < s.len)
    (hb : s.buf.byte s.pos ≠ 0x01) :
    step s = .next { s with seq := .field f f.reader, ret := { status := .ok, val := .select f.reader } } := by
  have hdec : decode (.lex .opt) s.window = .ok (.opt (s.buf.byte s.pos)) := by
    rw [State.window_cons hin, decode_opt_cons, if_neg hb]
  exact step_field_select hcmd hseq (by decide) hdec (exec_opt hseq hb)

theorem exec_absent {s : State} (h : s.pos + 1 ≤ s.len) :
    exec .absent s = .next { s with pos := s.pos + 1, ret := { status := .absent, val := .nothing } } := by
  simp only [exec, execAbsent, State.skipAbsent, h, if_true]
  rfl

/-- Settles O17: the two rows, the byte that tells them apart, and the step at OPT, whose reader the field's table names. -/
theorem optionalConvention : Obligations.OptionalConvention := by
  unfold Obligations.OptionalConvention
  refine ⟨fun s => exec_absent, fun s f op b => exec_opt, fun s => ⟨decode_lex_end .opt, fun hin hb => ?_, fun hin hb => ?_⟩,
    fun s f reader hcmd hseq hin hb hreader => ?_⟩
  · rw [State.window_cons hin, decode_opt_cons, if_pos hb]
  · rw [State.window_cons hin, decode_opt_cons, if_neg hb]
  · have hnamed : f.reader = reader := by
      simp only [List.mem_cons, List.not_mem_nil, or_false, Prod.mk.injEq] at hreader
      rcases hreader with ⟨rfl, rfl⟩ | ⟨rfl, rfl⟩ | ⟨rfl, rfl⟩ | ⟨rfl, rfl⟩ | ⟨rfl, rfl⟩ | ⟨rfl, rfl⟩ | ⟨rfl, rfl⟩ | ⟨rfl, rfl⟩ |
        ⟨rfl, rfl⟩ | ⟨rfl, rfl⟩ | ⟨rfl, rfl⟩ | ⟨rfl, rfl⟩ | ⟨rfl, rfl⟩ | ⟨rfl, rfl⟩ <;> rfl
    rw [step_opt hcmd hseq hin hb, hnamed]

/-! A reader that failed (R180, R182). -/

theorem dispatched_status (op : Op) (r : Ret) : (dispatched op r).status = r.status := by
  unfold dispatched
  split
  · rfl
  · split <;> rfl

theorem State.finish_of_short {s : State} (f : Slot) (op : Op) (h : s.ret.status = .short) :
    ∃ r : Ret, r.status = .short ∧ s.finish f op = { s.raiseFatal .sizeError with ret := r } := by
  have hr : (if f.dispatches then dispatched op s.ret else s.ret).status = .short := by
    split
    · rw [dispatched_status, h]
    · exact h
  unfold State.finish
  generalize (if f.dispatches then dispatched op s.ret else s.ret) = r at hr
  refine ⟨r, hr, ?_⟩
  simp only [hr]
  rfl

theorem State.finish_of_missed {s : State} (f : Slot) (op : Op) (h : s.ret.status = .tagMismatch ∨ s.ret.status = .badLength) :
    ∃ r : Ret, r.status = s.ret.status ∧ s.finish f op = (State.missField { s with ret := r } f).nextField f := by
  have hr : (if f.dispatches then dispatched op s.ret else s.ret).status = s.ret.status := by
    split
    · rw [dispatched_status]
    · rfl
  unfold State.finish
  generalize (if f.dispatches then dispatched op s.ret else s.ret) = r at hr
  refine ⟨r, hr, ?_⟩
  rw [← hr] at h
  rcases h with h | h
  · simp only [h]
  · simp only [h]

/-! Going on to the next field writes no record and returns nothing. -/

theorem State.nextField_doc_ret (s : State) (f : Slot) : (s.nextField f).doc = s.doc ∧ (s.nextField f).ret = s.ret := by
  have hwarn (bs : List Byte) (c : EventCode) (g : FieldId) : (s.warnEmpty bs c g).doc = s.doc ∧ (s.warnEmpty bs c g).ret = s.ret := by
    unfold State.warnEmpty
    split <;> exact ⟨rfl, rfl⟩
  have hentry (t : State) : t.nextEntry.doc = t.doc ∧ t.nextEntry.ret = t.ret := by
    unfold State.nextEntry
    split <;> exact ⟨rfl, rfl⟩
  cases f with
  | openReqField | openServerId | glServerId => exact hwarn _ _ _
  | glValList | leValueSignature => exact hentry _
  | _ => exact ⟨rfl, rfl⟩

theorem State.warnField_eq_warn (s : State) (f : Slot) : ∃ c field, s.warnField f = s.warn c field := by
  unfold State.warnField
  split
  · exact ⟨_, _, rfl⟩
  · exact ⟨_, _, rfl⟩

/-- A missed field is one warning, and at the envelope's registers and the value list the sentinel (R180, R185, R316). -/
theorem State.missField_eq (s : State) (f : Slot) :
    ∃ c field env left, s.missField f = { s.warn c field with env := env, entriesLeft := left } := by
  obtain ⟨c, field, hwarn⟩ := s.warnField_eq_warn f
  refine ⟨c, field, (s.missField f).env, (s.missField f).entriesLeft, ?_⟩
  cases f <;> simp only [State.missField, hwarn] <;> rfl

/-- What a missed field leaves (R180): the cursor and the records; the field's warning is logged and the next line is not Error. -/
theorem State.missed_frame (s : State) (f : Slot) {t : State} (ht : t = (s.missField f).nextField f) :
    t.ret = s.ret ∧ t.pos = s.pos ∧ t.doc = s.doc ∧ t.result = s.result ∧ t.seq ≠ .error ∧ t.flags.warn = true ∧
      ∃ new, new ≠ [] ∧ t.ev = s.ev ++ new := by
  subst ht
  obtain ⟨c, field, env, left, hmiss⟩ := s.missField_eq f
  obtain ⟨hdoc, hret⟩ := State.nextField_doc_ret (s.missField f) f
  obtain ⟨more, hev, -, hwarn, -⟩ := (State.routine_nextField (s.missField f) f).log
  refine ⟨?_, ?_, ?_, ?_, ?_, ?_, { severity := .warning, code := c, field := field, loc := s.pos } :: more, by simp, ?_⟩
  · rw [hret, hmiss]; rfl
  · rw [(State.keeps_nextField _ f).pos, (s.keeps_missField f).pos]
  · rw [hdoc, hmiss]; rfl
  · rw [(State.routine_nextField _ f).result, (s.routine_missField f).result]
  · exact Position.ne_error_of_inMessage (State.nextField_inMessage _ f)
  · rw [hwarn, hmiss]; rfl
  · rw [hev, hmiss]; exact List.append_assoc _ _ _

theorem State.finish_status_of_failed {s : State} {e : ReadFail} (f : Slot) (op : Op) (h : s.ret.status = failStatus e) :
    (s.finish f op).ret.status = failStatus e := by
  have missed (hmiss : s.ret.status = .tagMismatch ∨ s.ret.status = .badLength) : (s.finish f op).ret.status = s.ret.status := by
    obtain ⟨r, hr, hfinish⟩ := State.finish_of_missed f op hmiss
    obtain ⟨hret, -⟩ := State.missed_frame { s with ret := r } f rfl
    rw [hfinish, hret, hr]
  cases e with
  | short =>
    obtain ⟨r, hr, hfinish⟩ := State.finish_of_short f op h
    rw [hfinish]
    exact hr
  | tagMismatch => rw [missed (.inl h), h]
  | badLength => rw [missed (.inr h), h]

/-! A wrong tag, which the decoder, the dispatcher or the recogniser finds (R125 to R127, R129 to R142). -/

theorem State.settle_of_failed {s : State} (f : Slot) (op : Op) (h : s.ret.status ≠ .ok) : s.settle f op = s.finish f op := if_neg h

theorem hi_ne_of_toNat {b : Byte} {h : BitVec 4} (hb : b.toNat / 16 ≠ h.toNat) : hi b ≠ h := fun heq => hb (hi_eq_iff.1 heq)

theorem decode_time_of_ne {b : Byte} (rest : List Byte) (hb : b ≠ 0x72) : decode (.lex .time) (b :: rest) = .error .tagMismatch := by
  simp only [decode, decodeOp, rdTime, hb, if_false, readInto]

theorem ReadsNumber.mismatch {op : Op} {tag : Byte} {w : Nat} {mk : Nat → Instr} {val : Nat → Val} {ones : Val}
    (h : ReadsNumber op tag w mk val ones) {s : State} (hin : s.pos < s.len) (htag : s.buf.byte s.pos ≠ tag) :
    decode (.lex op) s.window = .error .tagMismatch := by
  obtain ⟨-, hcases⟩ := h
  obtain ⟨-, hmismatch, -⟩ := hcases s
  exact hmismatch hin htag

/-- Which of the two shapes a dispatcher's wrong tag has: another type nibble, or a length nibble that names no reader. -/
theorem unsignedReader_of_rejected {b : Byte} (h : b ∉ ([0x62, 0x63, 0x65, 0x69] : List Byte)) :
    hi b ≠ 6 ∨ unsignedReader (lo b) = none := by
  revert b; decide

theorem integerReader_of_rejected {b : Byte} (h : b ∉ ([0x52, 0x53, 0x55, 0x59] : List Byte)) :
    hi b ≠ 5 ∨ integerReader (lo b) = none := by
  revert b; decide

section
variable {s : State} {f : Slot} {op : Op} (hcmd : s.cmd = none) (hseq : s.seq = .field f op)
include hcmd hseq

theorem step_field_tagError (hdec : decode (.lex op) s.window = .error .tagMismatch) :
    ∃ v, step s = .next ((s.return .tagMismatch v).finish f op) :=
  ⟨_, step_field_error hcmd hseq hdec⟩

/-- A row that answers `tag_mismatch` is the field's failed read. -/
theorem step_field_mismatch {i : Instr} {v : Val} (hdec : decode (.lex op) s.window = .ok i)
    (hexec : exec i s = .next (s.return .tagMismatch v)) : step s = .next ((s.return .tagMismatch v).finish f op) := by
  rw [step_field_ok hcmd hseq hdec hexec, State.settle_of_failed f op (nofun : Status.tagMismatch ≠ .ok)]

/-- A dispatcher that selects no reader, at another type nibble than its own or at a length nibble that names none. -/
theorem step_field_noReader {h : BitVec 4} {mk : BitVec 4 → Instr} {reader : BitVec 4 → Option Op} (hin : s.pos < s.len)
    (hdec : ∀ bs, decode (.lex op) bs = decodeNibble h mk bs) (hexec : ∀ w, exec (mk w) s = .next (s.selectReader (reader w)))
    (hbad : hi (s.buf.byte s.pos) ≠ h ∨ reader (lo (s.buf.byte s.pos)) = none) :
    ∃ v, step s = .next ((s.return .tagMismatch v).finish f op) := by
  by_cases hhi : hi (s.buf.byte s.pos) = h
  · have hread : decode (.lex op) s.window = .ok (mk (lo (s.buf.byte s.pos))) := by
      rw [hdec, State.window_cons hin, decodeNibble, if_pos hhi]
    exact ⟨_, step_field_mismatch hcmd hseq hread (by rw [hexec, hbad.resolve_left (not_not.2 hhi)]; rfl)⟩
  · have hread : decode (.lex op) s.window = .error .tagMismatch := by rw [hdec, State.window_cons hin, decodeNibble, if_neg hhi]
    exact ⟨_, step_field_error hcmd hseq hread⟩

/-- A tag that the reader does not take is the field's failed read (R120, R121). -/
theorem step_field_rejected (hin : s.pos < s.len) (h : rejectsTag op (s.buf.byte s.pos)) :
    ∃ v, step s = .next ((s.return .tagMismatch v).finish f op) := by
  have hwindow := State.window_cons hin
  obtain ⟨hu8, hu16, hu32, hu64, hi8, hi16, hi32, hi64⟩ := fixedWidthReaders
  cases op with
  | ostrLen =>
    have hnibble : (s.buf.byte s.pos).toNat / 16 ≠ 0 := h
    have hlen : ostrLen (s.buf.byte s.pos) = -1 := by rw [ostrLen_eq, if_pos hnibble]
    have hexec : exec (.ostrLen (s.buf.byte s.pos)) s = .next (s.return .ok (.int (-1))) := by rw [← hlen]; rfl
    exact ⟨_, step_field_ok hcmd hseq (by rw [hwindow]; rfl) hexec⟩
  | listLen =>
    have hnibble : (s.buf.byte s.pos).toNat / 16 ≠ 7 := h
    have hlen : listLen (s.buf.byte s.pos) = 0xFF := by rw [listLen_eq, if_neg hnibble]
    have hexec : exec (.listLen (s.buf.byte s.pos)) s = .next (s.return .ok (.w8 0xFF)) := by rw [← hlen]; rfl
    exact ⟨_, step_field_ok hcmd hseq (by rw [hwindow]; rfl) hexec⟩
  | ostrAny =>
    obtain ⟨h0, h8⟩ := h
    have hexec : exec (.rdOstrAny (s.buf.byte s.pos)) s = .next (s.return .tagMismatch (.octets [])) := by
      rw [exec_rdOstrAny, if_neg h0, if_neg h8]
      rfl
    exact ⟨_, step_field_mismatch hcmd hseq (by rw [hwindow]; rfl) hexec⟩
  | unsigned | status =>
    exact step_field_noReader hcmd hseq hin (fun _ => rfl) (fun _ => rfl) (unsignedReader_of_rejected h)
  | integer => exact step_field_noReader hcmd hseq hin (fun _ => rfl) (fun _ => rfl) (integerReader_of_rejected h)
  | ostr =>
    have hnibble : 16 ≤ (s.buf.byte s.pos).toNat := by
      by_contra hlt
      exact h (Nat.div_eq_of_lt (by omega))
    exact step_field_tagError hcmd hseq (decode_ostr_mismatch hin hnibble)
  | xostr => exact step_field_tagError hcmd hseq (by rw [hwindow]; exact decode_xostr_of_ne _ (hi_ne_of_toNat h))
  | list => exact step_field_tagError hcmd hseq (by rw [hwindow, decode_list_cons]; exact if_neg h)
  | time => exact step_field_tagError hcmd hseq (by rw [hwindow]; exact decode_time_of_ne _ h)
  | u8 => exact step_field_tagError hcmd hseq (hu8.mismatch hin h)
  | u16 => exact step_field_tagError hcmd hseq (hu16.mismatch hin h)
  | u32 => exact step_field_tagError hcmd hseq (hu32.mismatch hin h)
  | u64 => exact step_field_tagError hcmd hseq (hu64.mismatch hin h)
  | i8 => exact step_field_tagError hcmd hseq (hi8.mismatch hin h)
  | i16 => exact step_field_tagError hcmd hseq (hi16.mismatch hin h)
  | i32 => exact step_field_tagError hcmd hseq (hi32.mismatch hin h)
  | i64 => exact step_field_tagError hcmd hseq (hi64.mismatch hin h)
  | value | peek | isOstr | opt => exact h.elim

/-- A read that fails otherwise than by an exhausted buffer is the field's miss, and the next line of its rule (R180). -/
theorem step_field_missed (h : s.missesTag op) :
    ∃ r : Ret, (r.status = .tagMismatch ∨ r.status = .badLength) ∧
      step s = .next ((State.missField { s with ret := r } f).nextField f) := by
  have hfailed : ∃ st v, (st = .tagMismatch ∨ st = .badLength) ∧ step s = .next ((s.return st v).finish f op) := by
    obtain ⟨hin, htag⟩ | hdec | hdec := h
    · obtain ⟨v, hstep⟩ := step_field_rejected hcmd hseq hin htag
      exact ⟨_, v, .inl rfl, hstep⟩
    · exact ⟨_, _, .inl rfl, step_field_error hcmd hseq hdec⟩
    · exact ⟨_, _, .inr rfl, step_field_error hcmd hseq hdec⟩
  obtain ⟨st, v, hst, hstep⟩ := hfailed
  obtain ⟨r, hr, hfinish⟩ := State.finish_of_missed (s := s.return st v) f op hst
  exact ⟨r, hr ▸ hst, hstep.trans (congrArg _ hfinish)⟩

end

/-! A required string that stays empty (R183, R185). -/

theorem State.currentReqField_eq {s : State} {r : OpenResponse} (h : s.doc.opened = some r) : s.currentReqField = r.reqField := by
  rw [State.currentReqField, h]

theorem State.currentOpenServerId_eq {s : State} {r : OpenResponse} (h : s.doc.opened = some r) :
    s.currentOpenServerId = r.serverId := by
  rw [State.currentOpenServerId, h]

theorem State.currentListServerId_eq {s : State} {earlier : List ListResponse} {r : ListResponse} (h : s.doc.lists = earlier ++ [r]) :
    s.currentListServerId = r.serverId := by
  rw [State.currentListServerId, h, List.getLast?_concat]

theorem State.warnEmpty_of_eq_nil (s : State) {bs : List Byte} (h : bs = []) (c : EventCode) (field : FieldId) :
    s.warnEmpty bs c field = s.warn c (some field) := by
  subst h; rfl

theorem State.missed_openReqField {s : State} {r : OpenResponse} (hopen : s.doc.opened = some r) (hempty : r.reqField = []) :
    (s.missField .openReqField).nextField .openReqField =
      ((s.warn .wFieldTag (some .openReqField)).warn .wReqfieldEmpty (some .openReqField)).enter .openServerId := by
  have hfield := (State.currentReqField_eq (s := s.missField .openReqField) hopen).trans hempty
  rw [State.nextField, State.warnEmpty_of_eq_nil _ hfield]
  rfl

theorem State.missed_openServerId {s : State} {r : OpenResponse} (hopen : s.doc.opened = some r) (hempty : r.serverId = []) :
    (s.missField .openServerId).nextField .openServerId =
      ((s.warn .wFieldTag (some .openServerId)).warn .wServeridEmpty (some .openServerId)).enter .openRefTime := by
  have hfield := (State.currentOpenServerId_eq (s := s.missField .openServerId) hopen).trans hempty
  rw [State.nextField, State.warnEmpty_of_eq_nil _ hfield]
  rfl

theorem State.missed_glServerId {s : State} {earlier : List ListResponse} {r : ListResponse} (hlists : s.doc.lists = earlier ++ [r])
    (hempty : r.serverId = []) :
    (s.missField .glServerId).nextField .glServerId =
      ((s.warn .wFieldTag (some .glServerId)).warn .wServeridEmpty (some .glServerId)).enter .glListName := by
  have hfield := (State.currentListServerId_eq (s := s.missField .glServerId) hlists).trans hempty
  rw [State.nextField, State.warnEmpty_of_eq_nil _ hfield]
  rfl

/-- Behind the value signature the value list counts down (R185). -/
theorem State.missed_leValueSignature {s : State} {n : Nat} (hleft : s.entriesLeft = n + 1) :
    (s.missField .leValueSignature).nextField .leValueSignature =
      { s.warn .wFieldTag (some .leValueSignature) with
        entriesLeft := n
        seq := if n = 0 then .field .glListSignature .opt else .entryHeader } := by
  have hcount : (s.missField .leValueSignature).entriesLeft - 1 = n := by
    show s.entriesLeft - 1 = n
    omega
  rw [State.nextField, hcount]
  cases n <;> rfl

/-- Settles O34: the short read by `State.finish_of_short`, every other failed read by `step_field_missed`, whose frame is
`State.missed_frame` and whose next line the field's own rule gives. -/
theorem failedFieldRead : Obligations.FailedFieldRead := by
  unfold Obligations.FailedFieldRead
  intro s f op hcmd hseq
  refine ⟨fun hshort => ?_, fun hmiss => ?_⟩
  · obtain ⟨r, hr, hfinish⟩ := State.finish_of_short (s := s.return .short (sentinelAt f op)) f op rfl
    exact ⟨r, hr, (step_field_error hcmd hseq hshort).trans (congrArg _ hfinish)⟩
  · obtain ⟨r, hr, hstep⟩ := step_field_missed hcmd hseq hmiss
    obtain ⟨hret, hpos, hdoc, hresult, hrunning, hwarned, hlogged⟩ := State.missed_frame { s with ret := r } f rfl
    refine ⟨_, hstep, hret.symm ▸ hr, hpos, hdoc, hresult, hrunning, hwarned, hlogged, fun field next hfield => ?_,
      fun q hf hopen hempty => ?_, fun q hf hopen hempty => ?_, fun earlier q hf hlists hempty => ?_, fun n hf hleft => ?_⟩
    · simp only [List.mem_cons, List.not_mem_nil, or_false, Prod.mk.injEq] at hfield
      rcases hfield with ⟨rfl, rfl, rfl⟩ | ⟨rfl, rfl, rfl⟩ | ⟨rfl, rfl, rfl⟩ | ⟨rfl, rfl, rfl⟩ | ⟨rfl, rfl, rfl⟩ | ⟨rfl, rfl, rfl⟩ |
        ⟨rfl, rfl, rfl⟩ | ⟨rfl, rfl, rfl⟩ | ⟨rfl, rfl, rfl⟩ | ⟨rfl, rfl, rfl⟩ | ⟨rfl, rfl, rfl⟩ | ⟨rfl, rfl, rfl⟩ | ⟨rfl, rfl, rfl⟩ |
        ⟨rfl, rfl, rfl⟩ | ⟨rfl, rfl, rfl⟩ | ⟨rfl, rfl, rfl⟩ <;> rfl
    · subst hf
      rw [State.missed_openReqField (s := { s with ret := r }) (r := q) hopen hempty]
      rfl
    · subst hf
      rw [State.missed_openServerId (s := { s with ret := r }) (r := q) hopen hempty]
      rfl
    · subst hf
      rw [State.missed_glServerId (s := { s with ret := r }) (r := q) hlists hempty]
      rfl
    · subst hf
      rw [State.missed_leValueSignature (s := { s with ret := r }) (n := n) hleft]
      rfl

/-! Times (R142, R143). -/

/-- Behind the two bytes in front of it the sub-type selects the variant. -/
theorem decode_time_sub (b : Byte) (rest : List Byte) :
    decode (.lex .time) (0x72 :: 0x62 :: b :: rest) =
      if b.toNat = 1 then readInto (fun v => .timeSec (BitVec.ofNat 32 v)) (rdU32 rest)
      else if b.toNat = 2 then readInto (fun v => .timeTs (BitVec.ofNat 32 v)) (rdU32 rest)
      else if b.toNat = 3 then .ok .timeLocal
      else .error .tagMismatch := by
  have hsub : rdU8 (0x62 :: b :: rest) = .ok (b.toNat, rest) := rdU8_ok_iff_byte.2 ⟨b, rfl, rfl⟩
  simp only [decode, decodeOp, rdTime, if_true, hsub]
  cases rdU32 rest <;> split_ifs <;> rfl

/-- A time whose second part cannot be read fails as that part does. -/
theorem decode_time_of_value_error {b : Byte} {rest : List Byte} {e : ReadFail} (hb : b.toNat = 1 ∨ b.toNat = 2)
    (h : rdU32 rest = .error e) : decode (.lex .time) (0x72 :: 0x62 :: b :: rest) = .error e := by
  rw [decode_time_sub, h]
  rcases hb with hb | hb <;> rw [hb] <;> rfl

/-- Settles O16: the bytes one after the other, the three rows, and a failed read at a field, which settles where it stood. -/
theorem timeReader : Obligations.TimeReader := by
  unfold Obligations.TimeReader
  refine ⟨fun rest => ⟨rfl, fun b => decode_time_of_ne rest, rfl, fun b hb => ?_, rfl, fun b hb => ?_, ?_, fun b hb => ⟨?_, fun c hc => ?_,
    fun hcut => ?_⟩, fun v => ?_, fun v => ?_⟩, fun s v => ⟨fun hin => ⟨?_, ?_⟩, fun hin => ?_⟩, fun s f e hcmd hseq hdec => ?_⟩
  · simp only [decode, decodeOp, rdTime, if_true, rdU8, rdNum, hb, if_false, readInto]
  · rw [decode_time_sub, if_neg (by omega), if_neg (by omega), if_neg (by omega)]
  · exact decode_of_prefix (i := .timeLocal) trivial ⟨rest, rfl⟩
  · exact decode_time_of_value_error hb rfl
  · exact decode_time_of_value_error hb (by rw [rdU32, rdNum, if_neg hc])
  · exact decode_time_of_value_error hb (by rw [rdU32, rdNum, if_pos rfl, if_pos hcut])
  · exact decode_of_prefix (i := .timeSec v) trivial ⟨rest, rfl⟩
  · exact decode_of_prefix (i := .timeTs v) trivial ⟨rest, rfl⟩
  · exact congrArg Host.Outcome.next (State.accept_inside hin _ _)
  · exact congrArg Host.Outcome.next (State.accept_inside hin _ _)
  · exact congrArg Host.Outcome.next (State.accept_inside hin _ _)
  · refine ⟨_, step_field_error hcmd hseq hdec, (State.keeps_finish _ f .time).pos, State.finish_status_of_failed f .time rfl⟩

/-! Numbers read through a dispatcher (R137 to R139, R147, R200, R201). -/

/-- `reader` reads numbers of `w` bytes behind `tag`, and a dispatcher keeps the number `n` as `ext n` (R137, R138). -/
def ReadsExtended (reader : Op) (signed : Bool) (tag : Byte) (w : Nat) (ext : Nat → BitVec 64) : Prop :=
  signedOf reader = some signed ∧
    ∃ mk val ones, ReadsNumber reader tag w mk val ones ∧ ∀ n, n < 256 ^ w → (val n).extend signed = ext n

theorem zeroExtend_ofNat {k n : Nat} (hn : n < 2 ^ k) : (BitVec.ofNat k n).zeroExtend 64 = BitVec.ofNat 64 n := by
  apply BitVec.eq_of_toNat_eq
  rw [BitVec.toNat_setWidth, BitVec.toNat_ofNat, Nat.mod_eq_of_lt hn, BitVec.toNat_ofNat]

/-- RD_UNSIGNED and RD_STATUS at each of their four tags (R137, R139). -/
theorem unsignedReader_reads {w : Nat} {b : Byte} (hw : w ∈ [1, 2, 4, 8]) (hb : b.toNat = 0x61 + w) :
    hi b = 6 ∧ ∃ reader, unsignedReader (lo b) = some reader ∧ ReadsExtended reader false b w (BitVec.ofNat 64) := by
  obtain ⟨hu8, hu16, hu32, hu64, -⟩ := fixedWidthReaders
  simp only [List.mem_cons, List.not_mem_nil, or_false] at hw
  rcases hw with rfl | rfl | rfl | rfl
  · obtain rfl : b = 0x62 := BitVec.eq_of_toNat_eq hb
    exact ⟨rfl, .u8, rfl, rfl, _, _, _, hu8, fun n hn => zeroExtend_ofNat (k := 8) hn⟩
  · obtain rfl : b = 0x63 := BitVec.eq_of_toNat_eq hb
    exact ⟨rfl, .u16, rfl, rfl, _, _, _, hu16, fun n hn => zeroExtend_ofNat (k := 16) hn⟩
  · obtain rfl : b = 0x65 := BitVec.eq_of_toNat_eq hb
    exact ⟨rfl, .u32, rfl, rfl, _, _, _, hu32, fun n hn => zeroExtend_ofNat (k := 32) hn⟩
  · obtain rfl : b = 0x69 := BitVec.eq_of_toNat_eq hb
    exact ⟨rfl, .u64, rfl, rfl, _, _, _, hu64, fun n hn => rfl⟩

/-- RD_INTEGER at each of its four tags (R138). -/
theorem integerReader_reads {w : Nat} {b : Byte} (hw : w ∈ [1, 2, 4, 8]) (hb : b.toNat = 0x51 + w) :
    hi b = 5 ∧ ∃ reader, integerReader (lo b) = some reader ∧
      ReadsExtended reader true b w fun n => (BitVec.ofNat (8 * w) n).signExtend 64 := by
  obtain ⟨-, -, -, -, hi8, hi16, hi32, hi64⟩ := fixedWidthReaders
  simp only [List.mem_cons, List.not_mem_nil, or_false] at hw
  rcases hw with rfl | rfl | rfl | rfl
  · obtain rfl : b = 0x52 := BitVec.eq_of_toNat_eq hb
    exact ⟨rfl, .i8, rfl, rfl, _, _, _, hi8, fun n hn => rfl⟩
  · obtain rfl : b = 0x53 := BitVec.eq_of_toNat_eq hb
    exact ⟨rfl, .i16, rfl, rfl, _, _, _, hi16, fun n hn => rfl⟩
  · obtain rfl : b = 0x55 := BitVec.eq_of_toNat_eq hb
    exact ⟨rfl, .i32, rfl, rfl, _, _, _, hi32, fun n hn => rfl⟩
  · obtain rfl : b = 0x59 := BitVec.eq_of_toNat_eq hb
    exact ⟨rfl, .i64, rfl, rfl, _, _, _, hi64, fun n hn => (BitVec.signExtend_eq _).symm⟩

/-- A number read at a field with a dispatcher is stored in the 64-bit container. -/
theorem State.settle_number {s : State} {f : Slot} {reader : Op} {signed : Bool} (hf : f.dispatches = true)
    (hreader : signedOf reader = some signed) (hok : s.ret.status = .ok) :
    s.settle f reader =
      (State.store { s with ret := { s.ret with val := .w64 (s.ret.val.extend signed) } } f reader
        (.w64 (s.ret.val.extend signed))).nextField f := by
  have hsettle : s.settle f reader = s.finish f reader := by
    cases reader with
    | u8 | u16 | u32 | u64 | i8 | i16 | i32 | i64 => simp only [State.settle, ite_self]
    | _ => cases hreader
  rw [hsettle]
  simp only [State.finish, hf, if_true, dispatched, hreader, hok]

theorem memRead_congr {s t : State} (h : t.buf = s.buf) (a n : Nat) : t.memRead a n = s.memRead a n := by
  rw [← ofBigEndian_bytes, ← ofBigEndian_bytes, h]

/-- The step of the selected reader. -/
theorem ReadsExtended.step {s : State} {f : Slot} {reader : Op} {signed : Bool} {w : Nat} {ext : Nat → BitVec 64}
    (h : ReadsExtended reader signed (s.buf.byte s.pos) w ext) (hcmd : s.cmd = none) (hf : f.dispatches = true)
    (hin : s.pos + 1 + w ≤ s.len) (r : Ret) :
    ∃ x : Ret, Machine.step { s with seq := .field f reader, ret := r } =
      .next ((State.store { s with pos := s.pos + 1 + w, seq := .field f reader, ret := x } f reader
        (.w64 (ext (s.memRead (s.pos + 1) w)))).nextField f) := by
  obtain ⟨hsigned, mk, val, ones, ⟨-, hreads⟩, hext⟩ := h
  obtain ⟨-, -, -, hdec, hexec, -⟩ := hreads { s with seq := .field f reader, ret := r }
  have hnumber := memRead_congr (s := s) (t := { s with seq := .field f reader, ret := r }) rfl (s.pos + 1) w
  refine ⟨{ status := .ok, val := .w64 (ext (s.memRead (s.pos + 1) w)) }, ?_⟩
  rw [step_field_ok (s := { s with seq := .field f reader, ret := r }) hcmd rfl (hdec hin rfl) (hexec _ hin),
    State.settle_number hf hsigned rfl, hnumber, hext _ (memRead_lt s (s.pos + 1) w)]

/-! Several steps. -/

theorem State.steps_succ {s t : State} (h : step s = .next t) (n : Nat) : s.steps (n + 1) = t.steps n := by
  have hstep : s.stepOnce = .next t := h
  simp only [State.steps, hstep]

section
variable {s : State} {f : Slot} {op first start : Op} {k w : Nat} (hk : (start, k) ∈ [(first, 3), (op, 2)])
  (hseq : s.seq = .field f start)
  (hfirst : s.seq = .field f first → step s = .next { s with seq := .field f op, ret := { status := .ok, val := .select op } })
include hk hseq hfirst

/-- From the field's first operation the dispatcher is one step further than from itself. -/
theorem steps_to_dispatcher :
    ∃ r, s.steps k = State.steps { s with seq := .field f op, ret := r } 2 := by
  simp only [List.mem_cons, List.not_mem_nil, or_false, Prod.mk.injEq] at hk
  obtain ⟨rfl, rfl⟩ | ⟨rfl, rfl⟩ := hk
  · exact ⟨_, State.steps_succ (hfirst hseq) 2⟩
  · exact ⟨s.ret, by rw [← hseq]⟩

/-- A dispatcher with the type nibble `n` and the table `table`, and the reader it selects: the number is stored and the next field
follows. -/
theorem steps_number {n : BitVec 4} {mk : BitVec 4 → Instr} {table : BitVec 4 → Option Op} {signed : Bool} {ext : Nat → BitVec 64}
    (hcmd : s.cmd = none) (hf : f.dispatches = true)
    (hop : op ∈ [Op.opt, .ostrAny, .unsigned, .integer, .status, .value])
    (hdec : ∀ bs, decode (.lex op) bs = decodeNibble n mk bs) (hexec : ∀ l u, exec (mk l) u = .next (u.selectReader (table l)))
    (hreads : hi (s.buf.byte s.pos) = n ∧
      ∃ reader, table (lo (s.buf.byte s.pos)) = some reader ∧ ReadsExtended reader signed (s.buf.byte s.pos) w ext)
    (hin : s.pos + 1 + w ≤ s.len) :
    ∃ reader x, signedOf reader = some signed ∧
      s.steps k = .next ((State.store { s with pos := s.pos + 1 + w, seq := .field f reader, ret := x } f reader
        (.w64 (ext (s.memRead (s.pos + 1) w)))).nextField f) := by
  obtain ⟨hhi, reader, htable, hread⟩ := hreads
  obtain ⟨r, hdispatcher⟩ := steps_to_dispatcher hk hseq hfirst
  have htag : decode (.lex op) s.window = .ok (mk (lo (s.buf.byte s.pos))) := by
    rw [hdec, State.window_cons (by omega), decodeNibble, if_pos hhi]
  have hselect : step { s with seq := .field f op, ret := r } =
      .next { s with seq := .field f reader, ret := { status := .ok, val := .select reader } } :=
    step_field_select (s := { s with seq := .field f op, ret := r }) hcmd rfl hop htag (by rw [hexec, htable]; rfl)
  obtain ⟨x, hnumber⟩ := hread.step hcmd hf hin { status := .ok, val := .select reader }
  obtain ⟨hsigned, -⟩ := hread
  refine ⟨reader, x, hsigned, ?_⟩
  rw [hdispatcher, State.steps_succ hselect, State.steps_succ hnumber, State.steps]

end

/-- A write to the entry being filled (R200). -/
theorem State.updateEntry_eq {s : State} {earlier : List ListResponse} {r : ListResponse} {done : List ListEntry} {e : ListEntry}
    (hlists : s.doc.lists = earlier ++ [r]) (hentries : r.entries = done ++ [e]) (g : ListEntry → ListEntry) :
    s.updateEntry g = { s with doc := { s.doc with lists := earlier ++ [{ r with entries := done ++ [g e] }] } } := by
  rw [State.updateEntry, State.updateList, hlists, mapLast_append_singleton, hentries, mapLast_append_singleton]
  rfl

section
variable {s : State} {earlier : List ListResponse} {r : ListResponse} {done : List ListEntry} {e : ListEntry}
  (hlists : s.doc.lists = earlier ++ [r]) (hentries : r.entries = done ++ [e])
include hlists hentries

theorem State.store_leValue {reader : Op} {signed : Bool} (hreader : signedOf reader = some signed) (v : BitVec 64) :
    s.store .leValue reader (.w64 v) =
      { s with doc := { s.doc with lists := earlier ++ [{ r with
        entries := done ++ [{ e with value := if signed then .int v else .uint v }] }] } } := by
  rw [State.store, State.updateEntry_eq hlists hentries, entryValue, hreader]
  cases signed <;> rfl

theorem State.store_leStatus (reader : Op) (v : BitVec 64) :
    s.store .leStatus reader (.w64 v) =
      { s with doc := { s.doc with lists := earlier ++ [{ r with entries := done ++ [{ e with status := some v }] }] } } := by
  rw [State.store, State.updateEntry_eq hlists hentries]
  rfl

end

/-- The value probe selects a dispatcher of numbers by the type nibble (R201). -/
theorem step_value {s : State} {op : Op} (hcmd : s.cmd = none) (hseq : s.seq = .field .leValue .value) (hin : s.pos < s.len)
    (h : hi (s.buf.byte s.pos) = 5 ∧ op = .integer ∨ hi (s.buf.byte s.pos) = 6 ∧ op = .unsigned) :
    step s = .next { s with seq := .field .leValue op, ret := { status := .ok, val := .select op } } := by
  have hdec : decode (.lex .value) s.window = .ok (.value (s.buf.byte s.pos)) := by rw [State.window_cons hin]; rfl
  refine step_field_select hcmd hseq (by decide) hdec ?_
  obtain ⟨hhi, rfl⟩ | ⟨hhi, rfl⟩ := h
  · simp only [exec, execValue, hhi]
    rfl
  · simp only [exec, execValue, hhi]
    rfl

/-- Settles O41: the field's first operation (`step_value`, `step_opt`), the dispatcher and its reader (`steps_number`), the store. -/
theorem dispatchedNumbersStored : Obligations.DispatchedNumbersStored := by
  unfold Obligations.DispatchedNumbersStored
  intro s earlier r done e w hcmd hlists hentries hw hin
  have hbyte : s.pos < s.len := by omega
  refine ⟨fun op k hk hseq hb => ?_, fun op k hk hseq hb => ?_, fun op k hk hseq hb => ?_⟩
  · have hreads := unsignedReader_reads hw hb
    obtain ⟨reader, x, hreader, hsteps⟩ :=
      steps_number hk hseq (fun hfirst => step_value hcmd hfirst hbyte (.inr ⟨hreads.1, rfl⟩)) hcmd rfl (by decide) (fun _ => rfl)
        (fun _ _ => rfl) hreads hin
    refine ⟨x, ?_⟩
    rw [hsteps, State.store_leValue (s := { s with pos := s.pos + 1 + w, seq := .field .leValue reader, ret := x })
      hlists hentries hreader]
    rfl
  · have hreads := integerReader_reads hw hb
    obtain ⟨reader, x, hreader, hsteps⟩ :=
      steps_number hk hseq (fun hfirst => step_value hcmd hfirst hbyte (.inl ⟨hreads.1, rfl⟩)) hcmd rfl (by decide) (fun _ => rfl)
        (fun _ _ => rfl) hreads hin
    refine ⟨x, ?_⟩
    rw [hsteps, State.store_leValue (s := { s with pos := s.pos + 1 + w, seq := .field .leValue reader, ret := x })
      hlists hentries hreader]
    rfl
  · have hpresent : s.buf.byte s.pos ≠ 0x01 := by
      intro habsent
      rw [habsent, show (0x01 : Byte).toNat = 1 from rfl] at hb
      omega
    obtain ⟨reader, x, -, hsteps⟩ :=
      steps_number hk hseq (fun hfirst => step_opt hcmd hfirst hbyte hpresent) hcmd rfl (by decide) (fun _ => rfl)
        (fun _ _ => rfl) (unsignedReader_reads hw hb) hin
    refine ⟨x, ?_⟩
    rw [hsteps, State.store_leStatus (s := { s with pos := s.pos + 1 + w, seq := .field .leStatus reader, ret := x })
      hlists hentries]
    rfl

end Sys2Proof.Machine
end

/-! The CRC-16 engine (R160 to R167): the shift is linear over exclusive-or, and the table form and the residue are read
off that; then the two places that use the checksum, the CRC16 command and the CRC field. -/

section
namespace Sys2Proof

/-! The shift register. -/

/-- The engine is linear: no shift mixes two summands. -/
theorem crcShift_xor (c d : BitVec 16) : crcShift (c ^^^ d) = crcShift c ^^^ crcShift d := by
  have hshift : (c ^^^ d) >>> 1 = c >>> 1 ^^^ d >>> 1 := BitVec.ushiftRight_xor_distrib c d 1
  unfold crcShift
  rw [BitVec.getLsbD_xor, hshift]
  cases c.getLsbD 0 <;> cases d.getLsbD 0
  · rfl
  · exact BitVec.xor_assoc _ _ _
  · simp only [Bool.xor_false, if_true, Bool.false_eq_true, if_false]
    ac_rfl
  · have hcancel : c >>> 1 ^^^ crcPoly ^^^ (d >>> 1 ^^^ crcPoly) = c >>> 1 ^^^ d >>> 1 ^^^ (crcPoly ^^^ crcPoly) := by ac_rfl
    simp only [Bool.xor_true, Bool.not_true, Bool.false_eq_true, if_false, if_true]
    rw [hcancel, BitVec.xor_self, BitVec.xor_zero]

theorem crcShifts_xor (n : Nat) (c d : BitVec 16) : crcShifts n (c ^^^ d) = crcShifts n c ^^^ crcShifts n d := by
  induction n generalizing c d with
  | zero => rfl
  | succ n ih => rw [crcShifts, crcShifts, crcShifts, crcShift_xor, ih]

theorem crcShifts_add (n k : Nat) (c : BitVec 16) : crcShifts (n + k) c = crcShifts k (crcShifts n c) := by
  induction n generalizing c with
  | zero => rw [Nat.zero_add, crcShifts]
  | succ n ih => rw [Nat.succ_add, crcShifts, crcShifts, ih]

/-- Shifting out zeros never reaches the polynomial. -/
theorem crcShifts_of_low_zero {n : Nat} {c : BitVec 16} (h : ∀ i, i < n → c.getLsbD i = false) : crcShifts n c = c >>> n := by
  induction n generalizing c with
  | zero => rfl
  | succ n ih =>
    have hshift : crcShift c = c >>> 1 := by rw [crcShift, h 0 n.succ_pos, if_neg Bool.false_ne_true]
    have hlow : ∀ i, i < n → (c >>> 1).getLsbD i = false := fun i hi => by
      rw [BitVec.getLsbD_ushiftRight]
      exact h (1 + i) (by omega)
    rw [crcShifts, hshift, ih hlow, ← BitVec.shiftRight_add, Nat.add_comm]

/-- Eight shifts move a byte from the high end to the low end. -/
theorem crcShifts_high (b : Byte) : crcShifts 8 (b.zeroExtend 16 <<< 8) = b.zeroExtend 16 := by
  have hlow : ∀ i, i < 8 → (b.zeroExtend 16 <<< 8).getLsbD i = false := fun i hi => by
    rw [BitVec.getLsbD_shiftLeft, decide_eq_true hi, Bool.not_true, Bool.and_false, Bool.false_and]
  rw [crcShifts_of_low_zero hlow]
  refine BitVec.eq_of_toNat_eq ?_
  have hb : b.toNat < 256 := b.isLt
  simp only [BitVec.toNat_ushiftRight, BitVec.toNat_shiftLeft, BitVec.truncate_eq_setWidth, BitVec.toNat_setWidth,
    Nat.shiftLeft_eq, Nat.shiftRight_eq_div_pow]
  omega

/-! A word and its two bytes. -/

theorem word_eq_bytes (c : BitVec 16) :
    c = (c.extractLsb' 0 8).zeroExtend 16 ^^^ (c.extractLsb' 8 8).zeroExtend 16 <<< 8 := by
  refine BitVec.eq_of_getLsbD_eq fun i hi => ?_
  by_cases hlow : i < 8
  · simp [hi, hlow]
  · have hsub : i - 8 < 8 := by omega
    have hindex : 8 + (i - 8) = i := by omega
    simp [hi, hlow, hsub, hindex]

theorem ushiftRight_eq_highByte (c : BitVec 16) : c >>> 8 = (c.extractLsb' 8 8).zeroExtend 16 := by
  refine BitVec.eq_of_getLsbD_eq fun i hi => ?_
  by_cases hhigh : i < 8
  · simp [hi, hhigh]
  · have hout : 16 ≤ 8 + i := by omega
    simp [hi, hhigh, hout]

theorem xor_byte_ushiftRight (c : BitVec 16) (b : Byte) : (c ^^^ b.zeroExtend 16) >>> 8 = c >>> 8 := by
  refine BitVec.eq_of_getLsbD_eq fun i hi => ?_
  simp

/-! The table form (R162). -/

/-- Eight shifts of any word: its high byte moves down, its low byte selects the table's entry. -/
theorem crcShifts_eight (c : BitVec 16) : crcShifts 8 c = c >>> 8 ^^^ crcTab (c.extractLsb' 0 8) :=
  calc crcShifts 8 c
      = crcShifts 8 ((c.extractLsb' 0 8).zeroExtend 16 ^^^ (c.extractLsb' 8 8).zeroExtend 16 <<< 8) :=
        congrArg (crcShifts 8) (word_eq_bytes c)
    _ = crcTab (c.extractLsb' 0 8) ^^^ (c.extractLsb' 8 8).zeroExtend 16 := by rw [crcShifts_xor, crcShifts_high, crcTab]
    _ = c >>> 8 ^^^ crcTab (c.extractLsb' 0 8) := by rw [BitVec.xor_comm, ← ushiftRight_eq_highByte]

theorem crcByteTab_eq_crcByte (c : BitVec 16) (b : Byte) : crcByteTab c b = crcByte c b := by
  rw [crcByte, crcShifts_eight, xor_byte_ushiftRight, crcByteTab]

/-- Settles O6: the two loop bodies are one function; the entries are computed. -/
theorem crcTableForm : Obligations.CrcTableForm := by
  unfold Obligations.CrcTableForm
  have hbody : crcByteTab = crcByte := funext₂ crcByteTab_eq_crcByte
  refine ⟨fun bs => ?_, by decide, by decide, by decide, by decide, by decide⟩
  rw [crc16Tab, hbody, crc16, crcRun]

/-! The residue (R166). -/

theorem crcRun_append (c : BitVec 16) (xs ys : List Byte) : crcRun c (xs ++ ys) = crcRun (crcRun c xs) ys :=
  List.foldl_append

theorem crcRun_pair (c : BitVec 16) (l h : Byte) :
    crcRun c [l, h] = crcShifts 16 (c ^^^ (l.zeroExtend 16 ^^^ h.zeroExtend 16 <<< 8)) :=
  calc crcRun c [l, h]
      = crcShifts 8 (crcShifts 8 (c ^^^ l.zeroExtend 16) ^^^ h.zeroExtend 16) := rfl
    _ = crcShifts 8 (crcShifts 8 (c ^^^ l.zeroExtend 16 ^^^ h.zeroExtend 16 <<< 8)) := by
        rw [crcShifts_xor 8 (c ^^^ l.zeroExtend 16), crcShifts_high]
    _ = crcShifts 16 (c ^^^ (l.zeroExtend 16 ^^^ h.zeroExtend 16 <<< 8)) := by rw [← crcShifts_add, BitVec.xor_assoc]

/-- A word's two bytes, the low one first, enter the accumulator as the whole word would. -/
theorem crcRun_word (c w : BitVec 16) : crcRun c [w.extractLsb' 0 8, w.extractLsb' 8 8] = crcShifts 16 (c ^^^ w) := by
  rw [crcRun_pair, ← word_eq_bytes]

/-- The checksum of no bytes (R166 (i)). -/
theorem crc16_nil : crc16 [] = 0x0000 := by decide

/-- The checksum is the accumulator's complement, so behind its own two bytes every accumulator is 16 shifts of all ones. -/
theorem crc16_append_own (m : List Byte) : crc16 (m ++ [(crc16 m).extractLsb' 0 8, (crc16 m).extractLsb' 8 8]) = 0x0F47 := by
  have hones : crcRun crcInit m ^^^ crc16 m = 0xFFFF := by rw [crc16, ← BitVec.xor_assoc, BitVec.xor_self, BitVec.zero_xor]
  have hresidue : crcShifts 16 0xFFFF = 0xF0B8 := by simp [crcShifts, crcShift, crcPoly]
  calc crc16 (m ++ [(crc16 m).extractLsb' 0 8, (crc16 m).extractLsb' 8 8])
      = crcRun (crcRun crcInit m) [(crc16 m).extractLsb' 0 8, (crc16 m).extractLsb' 8 8] ^^^ 0xFFFF := by
        rw [← crcRun_append]; rfl
    _ = 0xF0B8 ^^^ 0xFFFF := by rw [crcRun_word, hones, hresidue]
    _ = 0x0F47 := by decide

/-- Settles O5: the check value and the worked byte are computed. -/
theorem crcCheckValue : Obligations.CrcCheckValue := by
  unfold Obligations.CrcCheckValue
  refine ⟨?_, by decide, crc16_nil⟩
  simp [crc16, crcRun, crcInit, crcByte, crcShifts, crcShift, crcPoly]

namespace Machine

/-- A run of bytes depends on those bytes alone, wherever it stands. -/
theorem Memory.bytes_eq_of_byte_eq {m m' : Memory} {a b n : Nat} (h : ∀ j, j < n → m.byte (a + j) = m'.byte (b + j)) :
    m.bytes a n = m'.bytes b n := by
  induction n generalizing a b with
  | zero => rfl
  | succ n ih =>
    have hrest : ∀ j, j < n → m.byte (a + 1 + j) = m'.byte (b + 1 + j) := fun j hj => by
      rw [Nat.add_assoc, Nat.add_assoc, Nat.add_comm 1 j]
      exact h (j + 1) (by omega)
    rw [Memory.bytes, Memory.bytes, ih hrest]
    exact congrArg (· :: _) (h 0 n.succ_pos)

/-- Settles O7: no bytes, the bytes alone, and the residue of a message behind its own checksum. -/
theorem crcResidue : Obligations.CrcResidue := by
  unfold Obligations.CrcResidue
  exact ⟨fun _ _ => crc16_nil, fun _ _ _ _ _ h => congrArg Sys2Proof.crc16 (Memory.bytes_eq_of_byte_eq h), crc16_append_own⟩

/-! The CRC16 command (R165). -/

theorem exec_crc16_inside {s : State} (hrest : s.resting = true) (hin : s.crcop.start + s.crcop.len ≤ s.len) :
    exec .crc16 s = .next { s with crcop := { s.crcop with out := s.crc16Of s.crcop.start s.crcop.len } } :=
  congrArg Host.Outcome.next (if_pos ⟨hrest, hin⟩)

theorem exec_crc16_outside {s : State} (hout : s.len < s.crcop.start + s.crcop.len) : exec .crc16 s = .next s :=
  congrArg Host.Outcome.next (if_neg fun h => Nat.not_le.2 hout h.2)

/-- Settles O43: the range is inside the buffer or not. -/
theorem crc16Command : Obligations.Crc16Command := by
  unfold Obligations.Crc16Command
  exact fun _ hrest => ⟨exec_crc16_inside hrest, exec_crc16_outside⟩

/-! The CRC field (R163, R164, R233): what is read there, the comparison, and the step. -/

section
variable {s : State}

theorem decode_crcField_end (h : s.len ≤ s.pos) : decode .crcField s.window = .error .short := by
  rw [State.window_nil h]; rfl

theorem decode_crcField_mismatch (hin : s.pos < s.len) (htag : s.buf.byte s.pos ≠ 0x63) :
    decode .crcField s.window = .error .tagMismatch := by
  rw [State.window_cons hin, decode, rdU16, rdNum, if_neg htag, readInto]

theorem decode_crcField_short (hin : s.pos < s.len) (htag : s.buf.byte s.pos = 0x63) (hcut : s.len < s.pos + 3) :
    decode .crcField s.window = .error .short := by
  have hshort : (s.bytesFrom (s.pos + 1)).length < 2 := by rw [State.bytesFrom_length]; omega
  rw [State.window_cons hin, decode, rdU16, rdNum, if_pos htag, if_pos hshort, readInto]

theorem decode_crcField_whole (hin : s.pos + 3 ≤ s.len) (htag : s.buf.byte s.pos = 0x63) :
    decode .crcField s.window = .ok (.crc (BitVec.ofNat 16 (s.memRead (s.pos + 1) 2))) := by
  have hwhole : ¬ (s.bytesFrom (s.pos + 1)).length < 2 := by rw [State.bytesFrom_length]; omega
  rw [State.window_cons (by omega), decode, rdU16, rdNum, if_pos htag, if_neg hwhole, readInto]
  rw [State.bytesFrom_take (a := s.pos + 1) (n := 2) hin, ofBigEndian_bytes]

theorem State.memRead_two (s : State) (a : Nat) : s.memRead a 2 = (s.buf.byte a).toNat * 256 + (s.buf.byte (a + 1)).toNat := by
  simp only [State.memRead, Nat.pow_one, Nat.pow_zero, Nat.mul_one, Nat.add_zero]

theorem State.compareCrc_of_match (h : s.env.crcField = expectedCrc s.cfg.crcSwap s.env.crcComputed) : s.compareCrc true = s := by
  obtain ⟨-, -, heq⟩ | ⟨hne, -⟩ := s.compareCrc_cases true
  · exact heq
  · exact absurd ⟨rfl, h⟩ hne

theorem State.compareCrc_of_mismatch {readOk : Bool}
    (h : readOk = true → s.env.crcField ≠ expectedCrc s.cfg.crcSwap s.env.crcComputed) :
    s.compareCrc readOk = { s with
      flags := { s.flags with crcErr := true }
      ev := s.ev ++ [{ severity := .error, code := .eCrcMismatch, field := some .crcField, loc := s.pos }] } := by
  obtain ⟨hok, heq, -⟩ | ⟨-, heq⟩ := s.compareCrc_cases readOk
  · exact absurd heq (h hok)
  · exact heq

/-- A whole CRC field: its registers are written, it is passed, and it is compared. -/
theorem exec_crc_inside (c : BitVec 16) (hin : s.pos + 3 ≤ s.len) :
    exec (.crc c) s = .next ((((s.setEnv (s.crcEnv c)).advance 3).compareCrc true).goto .eom) :=
  congrArg Host.Outcome.next (if_pos hin)

theorem step_crcField_ok {i : Instr} (hcmd : s.cmd = none) (hseq : s.seq = .crcField) (hdec : decode .crcField s.window = .ok i) :
    step s = exec i s := by
  have hctx : s.seq.ctx = some .crcField := by rw [hseq]; rfl
  have hfetch : s.fetchBytes = s.window := by rw [State.fetchBytes, hseq]
  rw [step_of_decode_ok hcmd hctx (hfetch ▸ hdec), settleOut_of_ne_field (by simp [hseq])]

theorem step_crcField_error {e : ReadFail} (hcmd : s.cmd = none) (hseq : s.seq = .crcField)
    (hdec : decode .crcField s.window = .error e) : step s = .next (s.crcUnread e) := by
  have hctx : s.seq.ctx = some .crcField := by rw [hseq]; rfl
  have hfetch : s.fetchBytes = s.window := by rw [State.fetchBytes, hseq]
  rw [step_of_cmd_none hcmd, sequence_of_decode_error hctx (hfetch ▸ hdec), State.unread, hseq]

end

/-- Settles O30: the row by its comparison, the step by what `RD_U16` answers. -/
theorem crcField : Obligations.CrcField := by
  unfold Obligations.CrcField
  intro s
  refine ⟨fun c m hin hm => ?_, fun hcmd hseq => ⟨fun hin htag => ?_, fun hcut => ?_, fun hin htag => ?_⟩⟩
  · subst hm
    refine ⟨fun hmatch => ?_, fun hmismatch => ?_⟩
    · rw [exec_crc_inside c hin, State.compareCrc_of_match (s := (s.setEnv (s.crcEnv c)).advance 3) hmatch]
      rfl
    · rw [exec_crc_inside c hin, State.compareCrc_of_mismatch (s := (s.setEnv (s.crcEnv c)).advance 3) fun _ => hmismatch]
      rfl
  · rw [step_crcField_ok hcmd hseq (decode_crcField_whole hin htag), State.memRead_two]
  · have hshort : decode .crcField s.window = .error .short := by
      obtain hend | ⟨htag, hcut⟩ := hcut
      · exact decode_crcField_end hend
      · by_cases hin : s.pos < s.len
        · exact decode_crcField_short hin htag hcut
        · exact decode_crcField_end (by omega)
    exact step_crcField_error hcmd hseq hshort
  · have hmissed : (s.setEnv (s.crcEnv 0xFFFF)).compareCrc false = _ := State.compareCrc_of_mismatch nofun
    rw [step_crcField_error hcmd hseq (decode_crcField_mismatch hin htag)]
    exact congrArg (fun t => Host.Outcome.next (State.goto t .eom)) hmissed

end Machine
end Sys2Proof
end

/-! A field that is read part by part (R125, R127, R140, R141, R146, R183, R201): which operation leads to which, the reader that passes the
field's bytes, and the run of all of them. -/

section
namespace Sys2Proof.Machine

open Sys2Proof

/-- `s` with the operation `op` next at the field `f`, an earlier operation having returned `r`. -/
def State.atField (s : State) (f : Slot) (op : Op) (r : Ret) : State := { s with seq := .field f op, ret := r }

theorem State.atField_self {s : State} {f : Slot} {op : Op} (hseq : s.seq = .field f op) : s.atField f op s.ret = s := by
  rw [State.atField, ← hseq]

/-- The field `f` is done: its last reader `op` has passed `n` bytes and returned `v`, which is stored, and the next line of the field's
rule follows (R180, R182). -/
def State.fieldDone (s : State) (f : Slot) (op : Op) (n : Nat) (v : Val) : State :=
  (((s.passed n v).goto (.field f op)).store f op v).nextField f

/-- At the field `f` the operation `op` consumes nothing and `op'` is next. -/
def State.Leads (s : State) (f : Slot) (op op' : Op) : Prop :=
  ∀ r, ∃ r', step (s.atField f op r) = .next (s.atField f op' r')

/-- From the operation `op` on, `k` steps read the field `f`: the last of them is the reader `last`, which passes `n` bytes and
returns `v`. -/
def State.Reads (s : State) (f : Slot) (op : Op) (k : Nat) (last : Op) (n : Nat) (v : Val) : Prop :=
  ∀ r, (s.atField f op r).steps k = .next (s.fieldDone f last n v)

section
variable {s : State} {f : Slot} {op op' last : Op} {k n : Nat} {v : Val}

theorem State.Leads.step (h : s.Leads f op op') (hseq : s.seq = .field f op) :
    ∃ r, Machine.step s = .next (s.atField f op' r) := by
  have hstep := h s.ret
  rwa [State.atField_self hseq] at hstep

theorem State.Leads.reads (h : s.Leads f op op') (hread : s.Reads f op' k last n v) : s.Reads f op (k + 1) last n v := by
  intro r
  obtain ⟨r', hstep⟩ := h r
  rw [State.steps_succ hstep, hread r']

theorem State.Reads.steps (h : s.Reads f op k last n v) (hseq : s.seq = .field f op) : s.steps k = .next (s.fieldDone f last n v) := by
  have hsteps := h s.ret
  rwa [State.atField_self hseq] at hsteps

/-! The last reader. -/

/-- A reader that no other operation follows has returned the field's pair. -/
theorem State.settle_of_last (s : State) (hlast : f.successors op = []) : s.settle f op = s.finish f op := by
  cases op with
  | ostr | xostr | u8 | u16 | u32 | u64 | i8 | i16 | i32 | i64 | list | time => exact ite_self _
  | _ => cases hlast

/-- The pair of a field without a dispatcher, or of an operation that reads no number, is taken as it is (R137, R138). -/
theorem dispatched_of_plain (hplain : f.dispatches = false ∨ signedOf op = none) (r : Ret) :
    (if f.dispatches then dispatched op r else r) = r := by
  obtain hf | hop := hplain
  · rw [hf]; rfl
  · rw [dispatched, hop]; exact ite_self _

section
variable (hplain : f.dispatches = false ∨ signedOf op = none)
include hplain

theorem State.finish_of_ok (hret : s.ret.status = .ok) : s.finish f op = (s.store f op s.ret.val).nextField f := by
  rw [State.finish, dispatched_of_plain hplain]
  simp only [hret]

theorem State.finish_of_absent (hret : s.ret.status = .absent) : s.finish f op = s.nextField f := by
  rw [State.finish, dispatched_of_plain hplain]
  simp only [hret]

theorem State.finish_of_tagMismatch (hret : s.ret.status = .tagMismatch) : s.finish f op = (s.missField f).nextField f := by
  rw [State.finish, dispatched_of_plain hplain]
  simp only [hret]

theorem State.finish_of_cut (hret : s.ret.status = .short) : s.finish f op = s.raiseFatal .sizeError := by
  rw [State.finish, dispatched_of_plain hplain]
  simp only [hret]

end

/-- A row whose bytes stand at the cursor is read there, inside the buffer (R95, R120). -/
theorem State.reads_of_prefix {i : Instr} (hcmd : s.cmd = none) (hctx : i.ctx = .lex op) (hwf : i.WellFormed)
    (hbytes : encode i <+: s.window) (hlen : (encode i).length = n)
    (hexec : ∀ u : State, u.pos + n ≤ u.len → exec i u = .next (u.passed n v)) (hlast : f.successors op = [])
    (hplain : f.dispatches = false ∨ signedOf op = none) : s.Reads f op 1 op n v := by
  intro r
  have hdec : decode (.lex op) (s.atField f op r).window = .ok i := hctx ▸ decode_of_prefix hwf hbytes
  have hin : s.pos + n ≤ s.len := by
    have hbyte : s.pos < s.len := State.inside_of_decode_lex hdec
    have hfits := hbytes.length_le
    rw [s.window_length] at hfits
    omega
  refine (State.steps_succ (step_field_ok (s := s.atField f op r) hcmd rfl hdec (hexec _ hin)) 0).trans (congrArg Host.Outcome.next ?_)
  rw [State.settle_of_last _ hlast, State.finish_of_ok hplain rfl]
  rfl

/-- A row whose effect is to accept its bytes (R120) is read where they stand. -/
theorem State.reads_of_accept {i : Instr} {w : Val} (hcmd : s.cmd = none) (hctx : i.ctx = .lex op) (hwf : i.WellFormed)
    (hbytes : encode i <+: s.window) (hlen : (encode i).length = n) (hexec : ∀ u, exec i u = .next (u.accept n v w))
    (hlast : f.successors op = []) (hplain : f.dispatches = false ∨ signedOf op = none) : s.Reads f op 1 op n v :=
  State.reads_of_prefix hcmd hctx hwf hbytes hlen (fun u hin => (hexec u).trans (congrArg _ (State.accept_inside hin v w))) hlast hplain

end

/-- The window begins with the byte at the cursor, whatever that byte is known to be. -/
theorem State.window_of_byte {s : State} {b : Byte} (hin : s.pos < s.len) (hbyte : s.buf.byte s.pos = b) :
    s.window = b :: s.bytesFrom (s.pos + 1) :=
  hbyte ▸ State.window_cons hin

theorem toBigEndian_one (v : Byte) : toBigEndian 1 v.toNat = [v] := by
  rw [toBigEndian, toBigEndian, Nat.pow_zero, Nat.div_one, BitVec.ofNat_toNat, BitVec.setWidth_eq]

/-! Each reader's bytes. -/

section
variable {s : State} (hcmd : s.cmd = none) {p : List Byte}
include hcmd

theorem State.reads_ostr {l : BitVec 4} (h : s.ostrAt l p) (f : Slot) : s.Reads f .ostr 1 .ostr (1 + p.length) (.octets p) := by
  obtain ⟨hlen, rest, hwindow⟩ := h
  exact State.reads_of_accept (i := .ostr l p) hcmd rfl hlen ⟨rest, hwindow.symm⟩ (Nat.add_comm _ _) (fun _ => rfl) rfl (.inr rfl)

theorem State.reads_xostr {chain : List (BitVec 4)} {terminal : Byte} {rest : List Byte} {n : Nat} (hchain : chain ≠ [])
    (hterminal : hi terminal ≠ 8) (hn : n = chain.length + 1 + p.length) (htotal : ofNibbles (chain ++ [lo terminal]) = n)
    (hwindow : s.window = chain.map (tlByte 8) ++ terminal :: p ++ rest) (f : Slot) :
    s.Reads f .xostr 1 .xostr n (.octets p) := by
  subst hn
  have hwf : (Instr.xostr chain terminal p).WellFormed := by
    refine ⟨hchain, hterminal, ?_, ?_⟩ <;> rw [chainValue_eq_ofNibbles, htotal, chainLength] <;> omega
  have hlen : (encode (.xostr chain terminal p)).length = chain.length + 1 + p.length := by
    simp only [encode, List.length_append, List.length_map, List.length_cons]
    omega
  exact State.reads_of_prefix hcmd rfl hwf ⟨rest, hwindow.symm⟩ hlen (fun u hin => exec_xostr_inside (by omega) hin) rfl (.inr rfl)

theorem State.reads_time {time : SmlTime} {n : Nat} (h : s.timeAt time n) (f : Slot) : s.Reads f .time 1 .time n (.time time) := by
  obtain ⟨rest, ⟨v, rfl, rfl, hwindow⟩ | ⟨v, rfl, rfl, hwindow⟩ | ⟨rfl, rfl, hwindow⟩⟩ := h
  · exact State.reads_of_accept (i := .timeSec v) hcmd rfl trivial ⟨rest, hwindow.symm⟩ rfl (fun _ => rfl) rfl (.inr rfl)
  · exact State.reads_of_accept (i := .timeTs v) hcmd rfl trivial ⟨rest, hwindow.symm⟩ rfl (fun _ => rfl) rfl (.inr rfl)
  · exact State.reads_of_accept (i := .timeLocal) hcmd rfl trivial ⟨rest, hwindow.symm⟩ rfl (fun _ => rfl) rfl (.inr rfl)

theorem State.reads_u8 {v : Byte} {rest : List Byte} (hwindow : s.window = 0x62 :: v :: rest) {f : Slot} (hf : f.dispatches = false) :
    s.Reads f .u8 1 .u8 2 (.w8 v) := by
  have hbytes : encode (.u8 v) ++ rest = s.window := by rw [hwindow, encode, toBigEndian_one]; rfl
  exact State.reads_of_accept hcmd rfl trivial ⟨rest, hbytes⟩ rfl (fun _ => rfl) rfl (.inl hf)

theorem State.reads_i8 {v : Byte} {rest : List Byte} (hwindow : s.window = 0x52 :: v :: rest) {f : Slot} (hf : f.dispatches = false) :
    s.Reads f .i8 1 .i8 2 (.w8 v) := by
  have hbytes : encode (.i8 v) ++ rest = s.window := by rw [hwindow, encode, toBigEndian_one]; rfl
  exact State.reads_of_accept hcmd rfl trivial ⟨rest, hbytes⟩ rfl (fun _ => rfl) rfl (.inl hf)

theorem State.reads_list {n : BitVec 4} {rest : List Byte} (hwindow : s.window = tlByte 7 n :: rest) (f : Slot) :
    s.Reads f .list 1 .list 1 (.w8 (n.zeroExtend 8)) :=
  State.reads_of_accept (i := .list n) hcmd rfl trivial ⟨rest, hwindow.symm⟩ rfl (fun _ => rfl) rfl (.inr rfl)

end

/-! What a recogniser's answer leads to (R123 to R125, R140, R141, R183). -/

theorem ostrLen_nonneg {b : Byte} (hb : hi b = 0) : 0 ≤ ostrLen b := by
  have hsmall := hi_eq_zero_iff.1 hb
  rw [ostrLen_eq, if_neg (by omega)]
  split_ifs with hzero
  · decide
  · have hpos : b.toNat ≠ 0 := fun h => hzero (BitVec.eq_of_toNat_eq h)
    omega

theorem listLen_of_hi {b : Byte} (h : hi b = 7) : listLen b ≠ 0xFF := by
  revert b; decide

section
variable (s : State) (f : Slot)

theorem State.settle_ostrLen {n : Int} (hn : 0 ≤ n) :
    (s.atField f .ostrLen { status := .ok, val := .int n }).settle f .ostrLen = s.atField f .ostr { status := .ok, val := .int n } := by
  simp only [State.settle, State.atField, if_true, State.afterOstrLen, Int.not_lt.2 hn, if_false, State.goto]

theorem State.settle_listLen {n : BitVec 8} (hn : n ≠ 0xFF) :
    (s.atField f .listLen { status := .ok, val := .w8 n }).settle f .listLen = s.atField f .list { status := .ok, val := .w8 n } := by
  simp only [State.settle, State.atField, if_true, State.afterListLen, Val.byteOf, hn, if_false, State.goto]

theorem State.settle_peek {b : Byte} (hb : b ≠ 0x01) :
    (s.atField f .peek { status := .ok, val := .w8 b }).settle f .peek = s.atField f .isOstr { status := .ok, val := .w8 b } := by
  simp only [State.settle, State.atField, if_true, State.afterPeek, Val.byteOf, absentMark, hb, if_false, State.goto]

end

/-! The operations in front of the reader: each looks at the byte at the cursor. -/

section
variable {s : State} (hcmd : s.cmd = none) {b : Byte} {rest : List Byte} (hwindow : s.window = b :: rest)
include hcmd hwindow

/-- The step of an operation whose row looks at one byte. -/
theorem step_look {f : Slot} {op : Op} {mk : Byte → Instr} (v : Val) (hseq : s.seq = .field f op)
    (hdec : ∀ bs, decode (.lex op) bs = decodeByte mk bs) (hexec : ∀ u : State, exec (mk b) u = .next (u.return .ok v)) :
    step s = .next ((s.return .ok v).settle f op) := by
  have hread : decode (.lex op) s.window = .ok (mk b) := by rw [hdec, hwindow, decodeByte]
  exact step_field_ok hcmd hseq hread (hexec s)

theorem State.leads_of_look {f : Slot} {op op' : Op} {mk : Byte → Instr} (v : Val)
    (hdec : ∀ bs, decode (.lex op) bs = decodeByte mk bs) (hexec : ∀ u : State, exec (mk b) u = .next (u.return .ok v))
    (hsettle : (s.atField f op { status := .ok, val := v }).settle f op = s.atField f op' { status := .ok, val := v }) :
    s.Leads f op op' :=
  fun r => ⟨_, (step_look (s := s.atField f op r) hcmd hwindow v rfl hdec hexec).trans (congrArg Host.Outcome.next hsettle)⟩

theorem State.leads_opt (hb : b ≠ 0x01) {f : Slot} {op : Op} (hf : f.reader = op) : s.Leads f .opt op := by
  subst hf
  intro r
  have hread : decode (.lex .opt) (s.atField f .opt r).window = .ok (.opt b) :=
    (congrArg (decode (.lex .opt)) hwindow).trans (by rw [decode_opt_cons, if_neg hb])
  exact ⟨_, step_field_select (s := s.atField f .opt r) hcmd rfl (by decide) hread (exec_opt rfl hb)⟩

theorem State.leads_ostrLen (hb : hi b = 0) (f : Slot) : s.Leads f .ostrLen .ostr :=
  State.leads_of_look hcmd hwindow (.int (ostrLen b)) (fun _ => rfl) (fun _ => rfl) (s.settle_ostrLen f (ostrLen_nonneg hb))

theorem State.leads_ostrAny {op : Op} (h : hi b = 0 ∧ op = .ostrLen ∨ hi b = 8 ∧ op = .xostr) (f : Slot) :
    s.Leads f .ostrAny op := by
  have hexec (u : State) : exec (.rdOstrAny b) u = .next (u.return .ok (.select op)) := by
    obtain ⟨hhi, rfl⟩ | ⟨hhi, rfl⟩ := h <;> rw [exec, execRdOstrAny, hhi] <;> rfl
  exact State.leads_of_look hcmd hwindow (.select op) (fun _ => rfl) hexec rfl

theorem State.leads_value (hb : hi b = 0) (f : Slot) : s.Leads f .value .ostrLen := by
  have hexec (u : State) : exec (.value b) u = .next (u.return .ok (.select .ostrLen)) := by
    rw [exec, execValue, if_pos hb]
  exact State.leads_of_look hcmd hwindow (.select .ostrLen) (fun _ => rfl) hexec rfl

theorem State.leads_listLen (hb : hi b = 7) (f : Slot) : s.Leads f .listLen .list :=
  State.leads_of_look hcmd hwindow (.w8 (listLen b)) (fun _ => rfl) (fun _ => rfl) (s.settle_listLen f (listLen_of_hi hb))

theorem State.leads_peek (hb : b ≠ 0x01) (f : Slot) : s.Leads f .peek .isOstr :=
  State.leads_of_look hcmd hwindow (.w8 b) (fun _ => rfl) (fun _ => rfl) (s.settle_peek f hb)

theorem State.leads_isOstr (hb : hi b ≠ 0) (f : Slot) : s.Leads f .isOstr .time := by
  have hflag : isOstr b = false := beq_eq_false_iff_ne.2 hb
  exact State.leads_of_look hcmd hwindow (.flag false) (fun _ => rfl) (fun u => by rw [← hflag]; rfl) rfl

end

/-! Composed readers. -/

theorem tlByte_zero_ne_absent {l : BitVec 4} (h : l ≠ 1) : tlByte 0 l ≠ 0x01 := by
  revert l; decide

theorem tlByte_eight_ne_absent (l : BitVec 4) : tlByte 8 l ≠ 0x01 := by
  revert l; decide

theorem State.ostrAt_head {s : State} {l : BitVec 4} {p : List Byte} (h : s.ostrAt l p) : ∃ rest, s.window = tlByte 0 l :: rest := by
  obtain ⟨-, rest, hwindow⟩ := h
  exact ⟨_, hwindow⟩

theorem State.timeAt_head {s : State} {time : SmlTime} {n : Nat} (h : s.timeAt time n) : ∃ rest, s.window = 0x72 :: rest := by
  obtain ⟨rest, ⟨v, -, -, hwindow⟩ | ⟨v, -, -, hwindow⟩ | ⟨-, -, hwindow⟩⟩ := h <;> exact ⟨_, hwindow⟩

section
variable {s : State} (hcmd : s.cmd = none) {p : List Byte} {time : SmlTime} {n : Nat}
include hcmd

theorem State.reads_ostrLen {l : BitVec 4} (h : s.ostrAt l p) (f : Slot) :
    s.Reads f .ostrLen 2 .ostr (1 + p.length) (.octets p) := by
  obtain ⟨rest, hwindow⟩ := State.ostrAt_head h
  exact (State.leads_ostrLen hcmd hwindow (hi_tlByte 0 l) f).reads (State.reads_ostr hcmd h f)

theorem State.reads_opt_ostr {l : BitVec 4} (hl : l ≠ 1) (h : s.ostrAt l p) {f : Slot} (hf : f.reader = .ostrLen) :
    s.Reads f .opt 3 .ostr (1 + p.length) (.octets p) := by
  obtain ⟨rest, hwindow⟩ := State.ostrAt_head h
  exact (State.leads_opt hcmd hwindow (tlByte_zero_ne_absent hl) hf).reads (State.reads_ostrLen hcmd h f)

theorem State.reads_value_ostr {l : BitVec 4} (h : s.ostrAt l p) (f : Slot) :
    s.Reads f .value 3 .ostr (1 + p.length) (.octets p) := by
  obtain ⟨rest, hwindow⟩ := State.ostrAt_head h
  exact (State.leads_value hcmd hwindow (hi_tlByte 0 l) f).reads (State.reads_ostrLen hcmd h f)

theorem State.reads_signature {k : Nat} (h : s.signatureAt p n k) {f : Slot} (hf : f.reader = .ostrAny) :
    ∃ last, s.Reads f .opt k last n (.octets p) := by
  obtain ⟨rfl, rfl, l, hl, hostr⟩ | ⟨rfl, chain, terminal, rest, hchain, hterminal, hn, htotal, hwindow⟩ := h
  · obtain ⟨rest, hwindow⟩ := State.ostrAt_head hostr
    exact ⟨_, (State.leads_opt hcmd hwindow (tlByte_zero_ne_absent hl) hf).reads
      ((State.leads_ostrAny hcmd hwindow (.inl ⟨hi_tlByte 0 l, rfl⟩) f).reads (State.reads_ostrLen hcmd hostr f))⟩
  · have hread := State.reads_xostr hcmd hchain hterminal hn htotal hwindow f
    obtain ⟨m, ms, rfl⟩ := List.exists_cons_of_ne_nil hchain
    exact ⟨_, (State.leads_opt hcmd hwindow (tlByte_eight_ne_absent m) hf).reads
      ((State.leads_ostrAny hcmd hwindow (.inr ⟨hi_tlByte 8 m, rfl⟩) f).reads hread)⟩

theorem State.reads_opt_time (h : s.timeAt time n) {f : Slot} (hf : f.reader = .time) : s.Reads f .opt 2 .time n (.time time) := by
  obtain ⟨rest, hwindow⟩ := State.timeAt_head h
  exact (State.leads_opt hcmd hwindow (by decide) hf).reads (State.reads_time hcmd h f)

/-- The reference-time probe in front of a time (R183). -/
theorem State.reads_peek_time (h : s.timeAt time n) (f : Slot) : s.Reads f .peek 3 .time n (.time time) := by
  obtain ⟨rest, hwindow⟩ := State.timeAt_head h
  exact (State.leads_peek hcmd hwindow (by decide) f).reads
    ((State.leads_isOstr hcmd hwindow (by decide) f).reads (State.reads_time hcmd h f))

theorem State.reads_opt_u8 {v : Byte} {rest : List Byte} (hwindow : s.window = 0x62 :: v :: rest) {f : Slot}
    (hf : f.reader = .u8) (hplain : f.dispatches = false) : s.Reads f .opt 2 .u8 2 (.w8 v) :=
  (State.leads_opt hcmd hwindow (by decide) hf).reads (State.reads_u8 hcmd hwindow hplain)

theorem State.reads_listLen {l : BitVec 4} {rest : List Byte} (hwindow : s.window = tlByte 7 l :: rest) (f : Slot) :
    s.Reads f .listLen 2 .list 1 (.w8 (l.zeroExtend 8)) :=
  (State.leads_listLen hcmd hwindow (hi_tlByte 7 l) f).reads (State.reads_list hcmd hwindow f)

end

end Sys2Proof.Machine
end

/-! The message bodies (R181 to R186, R200): what a field's store writes, what follows the field, and the obligations about them. -/

section
namespace Sys2Proof.Machine

open Sys2Proof

/-! Writes to the record being filled. -/

theorem State.updateOpen_eq {s : State} {r : OpenResponse} (hopen : s.doc.opened = some r) (g : OpenResponse → OpenResponse) :
    s.updateOpen g = { s with doc := { s.doc with opened := some (g r) } } := by
  rw [State.updateOpen, hopen]
  rfl

theorem State.updateClose_eq {s : State} {r : CloseResponse} (hclosed : s.doc.closed = some r) (g : CloseResponse → CloseResponse) :
    s.updateClose g = { s with doc := { s.doc with closed := some (g r) } } := by
  rw [State.updateClose, hclosed]
  rfl

theorem State.updateList_eq {s : State} {earlier : List ListResponse} {r : ListResponse} (hlists : s.doc.lists = earlier ++ [r])
    (g : ListResponse → ListResponse) : s.updateList g = { s with doc := { s.doc with lists := earlier ++ [g r] } } := by
  rw [State.updateList, hlists, mapLast_append_singleton]
  rfl

section
variable {s : State} {f : Slot} {op last : Op} {k n : Nat} {v : Val} (h : s.Reads f op k last n v) (hseq : s.seq = .field f op)
include h hseq

theorem State.Reads.steps_of_updateOpen {r : OpenResponse} {g : OpenResponse → OpenResponse} (hopen : s.doc.opened = some r)
    (hstore : ∀ u : State, u.store f last v = u.updateOpen g) :
    s.steps k = .next
      (State.nextField { s.passed n v with doc := { s.doc with opened := some (g r) }, seq := .field f last } f) := by
  rw [h.steps hseq, State.fieldDone, hstore, State.updateOpen_eq (s := (s.passed n v).goto (.field f last)) hopen]
  rfl

theorem State.Reads.steps_of_updateClose {r : CloseResponse} {g : CloseResponse → CloseResponse} (hclosed : s.doc.closed = some r)
    (hstore : ∀ u : State, u.store f last v = u.updateClose g) :
    s.steps k = .next
      (State.nextField { s.passed n v with doc := { s.doc with closed := some (g r) }, seq := .field f last } f) := by
  rw [h.steps hseq, State.fieldDone, hstore, State.updateClose_eq (s := (s.passed n v).goto (.field f last)) hclosed]
  rfl

section
variable {earlier : List ListResponse} {r : ListResponse} (hlists : s.doc.lists = earlier ++ [r])
include hlists

theorem State.Reads.steps_of_updateList {g : ListResponse → ListResponse} (hstore : ∀ u : State, u.store f last v = u.updateList g) :
    s.steps k = .next
      (State.nextField { s.passed n v with doc := { s.doc with lists := earlier ++ [g r] }, seq := .field f last } f) := by
  rw [h.steps hseq, State.fieldDone, hstore, State.updateList_eq (s := (s.passed n v).goto (.field f last)) hlists]
  rfl

theorem State.Reads.steps_of_updateEntry {done : List ListEntry} {e : ListEntry} {g : ListEntry → ListEntry}
    (hentries : r.entries = done ++ [e]) (hstore : ∀ u : State, u.store f last v = u.updateEntry g) :
    s.steps k = .next
      (State.nextField { s.passed n v with
        doc := { s.doc with lists := earlier ++ [{ r with entries := done ++ [g e] }] }
        seq := .field f last } f) := by
  rw [h.steps hseq, State.fieldDone, hstore, State.updateEntry_eq (s := (s.passed n v).goto (.field f last)) hlists hentries]
  rfl

end

end

/-! The value list's loop (R185). -/

theorem State.nextEntry_eq (s : State) :
    s.nextEntry = { s with seq := if s.entriesLeft = 0 then .field .glListSignature .opt else .entryHeader } := by
  unfold State.nextEntry
  split_ifs <;> rfl

/-- Behind the value signature the loop counts down. -/
theorem State.nextField_leValueSignature {s : State} {m : Nat} (hleft : s.entriesLeft = m + 1) :
    s.nextField .leValueSignature =
      { s with entriesLeft := m, seq := if m = 0 then .field .glListSignature .opt else .entryHeader } := by
  rw [State.nextField, State.nextEntry_eq, hleft]
  rfl

/-! Absent optional fields (R182). -/

/-- At the absent marker an optional field is passed and the next line of its rule follows. -/
theorem step_absent {s : State} {f : Slot} (hcmd : s.cmd = none) (hseq : s.seq = .field f .opt) (hin : s.pos < s.len)
    (hbyte : s.buf.byte s.pos = 0x01) :
    step s = .next (State.nextField { s with pos := s.pos + 1, ret := { status := .absent, val := .nothing } } f) := by
  have hdec : decode (.lex .opt) s.window = .ok .absent := by rw [State.window_cons hin, decode_opt_cons, if_pos hbyte]
  rw [step_field_ok hcmd hseq hdec (exec_absent hin), State.settle_of_failed f .opt (nofun : Status.absent ≠ .ok),
    State.finish_of_absent (.inr rfl) rfl]

/-- Settles O36: every field by `step_absent`, behind which its layout names the next field or the value list counts down. -/
theorem absentOptionalFields : Obligations.AbsentOptionalFields := by
  unfold Obligations.AbsentOptionalFields
  intro s f hcmd hseq hin hbyte
  have hstep := step_absent hcmd hseq hin hbyte
  refine ⟨fun next hnext => ⟨{ status := .absent, val := .nothing }, rfl, hstep.trans ?_⟩,
    fun n hf hleft => ⟨{ status := .absent, val := .nothing }, rfl, hstep.trans ?_⟩⟩
  · simp only [List.mem_cons, List.not_mem_nil, or_false, Prod.mk.injEq] at hnext
    rcases hnext with ⟨rfl, rfl⟩ | ⟨rfl, rfl⟩ | ⟨rfl, rfl⟩ | ⟨rfl, rfl⟩ | ⟨rfl, rfl⟩ | ⟨rfl, rfl⟩ | ⟨rfl, rfl⟩ | ⟨rfl, rfl⟩ |
      ⟨rfl, rfl⟩ | ⟨rfl, rfl⟩ | ⟨rfl, rfl⟩ | ⟨rfl, rfl⟩ | ⟨rfl, rfl⟩ <;> rfl
  · subst hf
    exact congrArg Host.Outcome.next (State.nextField_leValueSignature hleft)

/-! Required strings (R183, R185, R200). -/

theorem State.warnEmpty_eq (s : State) (bs : List Byte) (c : EventCode) (field : FieldId) :
    s.warnEmpty bs c field = if bs = [] then s.warn c (some field) else s := by
  rw [State.warnEmpty]
  simp only [List.isEmpty_iff]

/-- Settles O37: from either operation the string is read and stored, and the empty one draws the warning of its own record. -/
theorem requiredStrings : Obligations.RequiredStrings := by
  unfold Obligations.RequiredStrings
  intro s op k l payload rest hcmd hk hlen hwindow
  have hreads (f : Slot) : s.Reads f op k .ostr (1 + payload.length) (.octets payload) := by
    simp only [List.mem_cons, List.not_mem_nil, or_false, Prod.mk.injEq] at hk
    obtain ⟨rfl, rfl⟩ | ⟨rfl, rfl⟩ := hk
    · exact State.reads_ostrLen hcmd ⟨hlen, rest, hwindow⟩ f
    · exact State.reads_ostr hcmd ⟨hlen, rest, hwindow⟩ f
  refine ⟨s.passed (1 + payload.length) (.octets payload), by rw [State.passed, Nat.add_assoc], fun r hseq hopen => ?_,
    fun r hseq hopen => ?_, fun earlier r hseq hlists => ?_, fun earlier r done e hseq hlists hentries => ?_⟩
  · rw [(hreads _).steps_of_updateOpen hseq hopen fun _ => rfl, State.nextField, State.warnEmpty_eq]
    cases payload <;> rfl
  · rw [(hreads _).steps_of_updateOpen hseq hopen fun _ => rfl, State.nextField, State.warnEmpty_eq]
    cases payload <;> rfl
  · rw [(hreads _).steps_of_updateList hseq hlists fun _ => rfl, State.nextField, State.currentListServerId_eq rfl, State.warnEmpty_eq]
    cases payload <;> rfl
  · exact (hreads _).steps_of_updateEntry hseq hlists hentries fun _ => rfl

/-! Present fields (R182 to R186, R200, R201). -/

/-- Settles O38: for each field the run of its operations (`State.Reads`) and the write to its record (`steps_of_update…`); what follows it
is its layout's next field, behind the value signature the value list's loop. -/
theorem presentFieldsStored : Obligations.PresentFieldsStored := by
  unfold Obligations.PresentFieldsStored
  intro s hcmd
  refine ⟨fun r hopen => ⟨fun l p hl h => ⟨fun hseq => ?_, fun hseq => ?_⟩, fun time n h hseq => ?_, fun v rest h hseq => ?_⟩,
    fun r p n k hclosed h hseq => ?_,
    fun earlier r hlists => ⟨fun l p hl h => ⟨fun hseq => ?_, fun hseq => ?_⟩, fun time n h => ⟨fun hseq => ?_, fun hseq => ?_⟩,
      fun p n k h hseq => ?_⟩,
    fun earlier r done e hlists hentries => ⟨fun time n h hseq => ?_, fun v rest h hseq => ?_, fun v rest h hseq => ?_,
      fun l p h hseq => ?_, fun p n k m h hseq hleft => ?_⟩⟩
  · exact (State.reads_opt_ostr hcmd hl h rfl).steps_of_updateOpen hseq hopen fun _ => rfl
  · exact (State.reads_opt_ostr hcmd hl h rfl).steps_of_updateOpen hseq hopen fun _ => rfl
  · exact (State.reads_peek_time hcmd h _).steps_of_updateOpen hseq hopen fun _ => rfl
  · exact (State.reads_opt_u8 hcmd h rfl rfl).steps_of_updateOpen hseq hopen fun _ => rfl
  · obtain ⟨last, hread⟩ := State.reads_signature (f := .closeSignature) hcmd h rfl
    exact hread.steps_of_updateClose hseq hclosed fun _ => rfl
  · exact (State.reads_opt_ostr hcmd hl h rfl).steps_of_updateList hseq hlists fun _ => rfl
  · exact (State.reads_opt_ostr hcmd hl h rfl).steps_of_updateList hseq hlists fun _ => rfl
  · exact (State.reads_opt_time hcmd h rfl).steps_of_updateList hseq hlists fun _ => rfl
  · exact (State.reads_opt_time hcmd h rfl).steps_of_updateList hseq hlists fun _ => rfl
  · obtain ⟨last, hread⟩ := State.reads_signature (f := .glListSignature) hcmd h rfl
    exact hread.steps_of_updateList hseq hlists fun _ => rfl
  · exact (State.reads_opt_time hcmd h rfl).steps_of_updateEntry hseq hlists hentries fun _ => rfl
  · exact (State.reads_opt_u8 hcmd h rfl rfl).steps_of_updateEntry hseq hlists hentries fun _ => rfl
  · exact ((State.leads_opt hcmd h (by decide) rfl).reads (State.reads_i8 hcmd h rfl)).steps_of_updateEntry hseq hlists hentries
      fun _ => rfl
  · exact (State.reads_value_ostr hcmd h _).steps_of_updateEntry hseq hlists hentries fun _ => rfl
  · obtain ⟨last, hread⟩ := State.reads_signature (f := .leValueSignature) hcmd h rfl
    refine (hread.steps_of_updateEntry hseq hlists hentries fun _ => rfl).trans (congrArg Host.Outcome.next ?_)
    exact State.nextField_leValueSignature hleft

/-! The reference-time probe (R183). -/

/-- Settles O39: the end of the buffer is the failed read; PEEK skips the absent marker; IS_OSTR tells an octet string from a time. -/
theorem referenceTimeProbe : Obligations.ReferenceTimeProbe := by
  unfold Obligations.ReferenceTimeProbe
  intro s hcmd hseq
  refine ⟨fun hend => ⟨_, step_field_error hcmd hseq (decode_lex_end .peek hend)⟩, fun hin hbyte => ?_,
    fun hin hbyte hnibble => ?_, fun hin hnibble => ?_⟩
  · exact ⟨_, step_look hcmd (State.window_of_byte hin hbyte) (.w8 0x01) hseq (fun _ => rfl) fun _ => rfl⟩
  · have hwindow := State.window_cons hin
    have hostr : isOstr (s.buf.byte s.pos) = true := by rw [isOstr_eq, decide_eq_true_iff]; exact hnibble
    obtain ⟨r, hpeek⟩ := (State.leads_peek hcmd hwindow hbyte .openRefTime).step hseq
    have hprobe := step_look (s := s.atField .openRefTime .isOstr r) hcmd hwindow (.flag true) rfl (fun _ => rfl)
      fun u => by rw [← hostr]; rfl
    exact ⟨_, (State.steps_succ hpeek 1).trans (State.steps_succ hprobe 0)⟩
  · have hwindow := State.window_cons hin
    have hpresent : s.buf.byte s.pos ≠ 0x01 := fun h => hnibble (by rw [h]; rfl)
    obtain ⟨r, hpeek⟩ := (State.leads_peek hcmd hwindow hpresent .openRefTime).step hseq
    obtain ⟨r', hprobe⟩ := State.leads_isOstr hcmd hwindow (hi_ne_of_toNat hnibble) .openRefTime r
    exact ⟨r', (State.steps_succ hpeek 1).trans (State.steps_succ hprobe 0)⟩

/-! List headers: the arity checks (R181) and the value list (R185). -/

/-- A byte that is no list header is the field's miss and is not consumed. -/
theorem step_listLen_missed {s : State} {f : Slot} (hcmd : s.cmd = none) (hseq : s.seq = .field f .listLen) (hin : s.pos < s.len)
    (hnibble : (s.buf.byte s.pos).toNat / 16 ≠ 7) :
    step s = .next ((State.missField (s.return .tagMismatch (.w8 0xFF)) f).nextField f) := by
  have hlen : listLen (s.buf.byte s.pos) = 0xFF := by rw [listLen_eq, if_neg hnibble]
  have hstep := step_look hcmd (State.window_cons hin) (.w8 0xFF) hseq (fun _ => rfl) fun u => by rw [← hlen]; rfl
  have hsettle : (s.return .ok (.w8 0xFF)).settle f .listLen = (s.return .tagMismatch (.w8 0xFF)).finish f .listLen := rfl
  rw [hstep, hsettle, State.finish_of_tagMismatch (.inr rfl) rfl]

theorem State.checkArity_eq {s : State} {f : Slot} {expected : BitVec 8} {code : EventCode} (h : f.arity = some (expected, code))
    (n : BitVec 8) : s.checkArity f n = if n = expected then s else s.warn code none := by
  rw [State.checkArity, h]

theorem zeroExtend_nibble_inj {l n : BitVec 4} (h : l.zeroExtend 8 = n.zeroExtend 8) : l = n := by
  revert l n; decide

/-- Settles O35: a list header is read and its count compared; another byte is the check's miss; the end of the buffer is fatal. -/
theorem arityChecks : Obligations.ArityChecks := by
  unfold Obligations.ArityChecks
  intro s f g n code hcmd hseq hrow
  obtain ⟨harity, hstore, hmiss, hnext⟩ : f.arity = some (n.zeroExtend 8, code) ∧
      (∀ (u : State) (op : Op) (v : Val), u.store f op v = u.checkArity f v.byteOf) ∧
      (∀ u : State, u.missField f = u.warn code none) ∧ ∀ u : State, u.nextField f = u.goto (.field g .opt) := by
    simp only [List.mem_cons, List.not_mem_nil, or_false, Prod.mk.injEq] at hrow
    rcases hrow with ⟨rfl, rfl, rfl, rfl⟩ | ⟨rfl, rfl, rfl, rfl⟩ | ⟨rfl, rfl, rfl, rfl⟩ <;>
      exact ⟨rfl, fun _ _ _ => rfl, fun _ => rfl, fun _ => rfl⟩
  have hread (l : BitVec 4) (hin : s.pos < s.len) (hbyte : s.buf.byte s.pos = tlByte 7 l) :
      s.steps 2 = .next ((if l.zeroExtend 8 = n.zeroExtend 8 then (s.passed 1 (.w8 (l.zeroExtend 8))).goto (.field f .list)
        else State.warn ((s.passed 1 (.w8 (l.zeroExtend 8))).goto (.field f .list)) code none).goto (.field g .opt)) := by
    rw [(State.reads_listLen hcmd (State.window_of_byte hin hbyte) f).steps hseq, State.fieldDone, hnext, hstore, State.checkArity_eq harity]
    rfl
  refine ⟨fun hin hbyte => ?_, fun hin hnibble hbyte => ?_, fun hin hnibble => ?_, fun hend => ?_⟩
  · rw [hread n hin hbyte, if_pos rfl]
    rfl
  · have hheader : s.buf.byte s.pos = tlByte 7 (lo (s.buf.byte s.pos)) := by
      rw [← (hi_eq_iff (h := 7)).2 hnibble, tlByte_hi_lo]
    have hcount : lo (s.buf.byte s.pos) ≠ n := fun h => hbyte (hheader.trans (congrArg (tlByte 7) h))
    rw [hread _ hin hheader, if_neg fun h => hcount (zeroExtend_nibble_inj h)]
    rfl
  · rw [step_listLen_missed hcmd hseq hin hnibble, hmiss, hnext]
    rfl
  · rw [step_field_error hcmd hseq (decode_lex_end .listLen hend), State.finish_of_cut (.inr rfl) rfl]
    rfl

/-- Settles O40: the count read is the loop's counter; another byte is the value list's miss, whose counter is 0. -/
theorem valueListCount : Obligations.ValueListCount := by
  unfold Obligations.ValueListCount
  intro s hcmd hseq hin
  refine ⟨fun n hbyte => ?_, fun hnibble => ?_⟩
  · have hcount : (n.zeroExtend 8).toNat = n.toNat := by
      rw [BitVec.toNat_setWidth]
      exact Nat.mod_eq_of_lt (by omega)
    have hzero : n.toNat = 0 ↔ n = 0 := BitVec.toNat_inj (y := 0)
    have hdone : s.fieldDone .glValList .list 1 (.w8 (n.zeroExtend 8)) =
        State.nextEntry (((s.passed 1 (.w8 (n.zeroExtend 8))).goto (.field .glValList .list)).setEntriesLeft (n.zeroExtend 8).toNat) :=
      rfl
    rw [(State.reads_listLen hcmd (State.window_of_byte hin hbyte) .glValList).steps hseq, hdone, hcount, State.nextEntry_eq]
    simp only [State.setEntriesLeft_entriesLeft, hzero]
    rfl
  · rw [step_listLen_missed hcmd hseq hin hnibble]
    rfl

end Sys2Proof.Machine
end

/-! The list entry's own rows (R200, R201): ENTRY, the append and the arity check of seven, and VALUE, the probe of the value's type. -/

section
namespace Sys2Proof.Machine

open Sys2Proof

/-! The value probe (R201). -/

theorem exec_value_select {b : Byte} {reader : Op}
    (h : (b.toNat / 16, reader) ∈ [(0, Op.ostrLen), (5, .integer), (6, .unsigned)]) (s : State) :
    exec (.value b) s = .next (s.return .ok (.select reader)) := by
  simp only [List.mem_cons, List.not_mem_nil, or_false, Prod.mk.injEq] at h
  rcases h with ⟨hnibble, rfl⟩ | ⟨hnibble, rfl⟩ | ⟨hnibble, rfl⟩ <;>
    simp only [exec, execValue, hi_eq_iff, hnibble, BitVec.reduceToNat, reduceIte, Nat.reduceEqDiff]

theorem exec_value_unsupported {b : Byte} (hostr : b.toNat / 16 ≠ 0) (hint : b.toNat / 16 ≠ 5) (huint : b.toNat / 16 ≠ 6) (s : State) :
    exec (.value b) s = .next ((s.warn .wValueUnsupported (some .leValue)).return .ok .nothing) := by
  rw [exec, execValue, if_neg (hi_ne_of_toNat hostr), if_neg (hi_ne_of_toNat hint), if_neg (hi_ne_of_toNat huint)]

/-- Settles O18: the row by the type nibble; at the field the selected reader is next, and with none selected the next field. -/
theorem valueProbe : Obligations.ValueProbe := by
  unfold Obligations.ValueProbe
  refine ⟨fun s b => ⟨fun h => ?_, fun h => ?_, fun h => ?_, fun hostr hint huint => ?_⟩, fun s _ hcmd hseq => ⟨fun hend => ?_, ?_⟩⟩
  · exact exec_value_select (by rw [h]; decide) s
  · exact exec_value_select (by rw [h]; decide) s
  · exact exec_value_select (by rw [h]; decide) s
  · exact exec_value_unsupported hostr hint huint s
  · rw [step_field_error hcmd hseq (decode_lex_end .value hend), State.finish_of_cut (.inr rfl) rfl]
    exact ⟨_, rfl⟩
  · rintro hin rfl
    have hdec : decode (.lex .value) s.window = .ok (.value (s.buf.byte s.pos)) := by rw [State.window_cons hin]; rfl
    refine ⟨fun reader hreader => ?_, fun hostr hint huint => ?_⟩
    · exact step_field_select hcmd hseq (by decide) hdec (exec_value_select hreader s)
    · rw [step_field_ok hcmd hseq hdec (exec_value_unsupported hostr hint huint s)]
      rfl

/-! The entry's header (R200, R181). -/

section
variable {s : State}

theorem exec_entry_end (hend : s.len ≤ s.pos) : exec .entry s = .next (s.addEntry.raiseFatal .sizeError) := by
  have hwindow : s.addEntry.window = [] := State.window_nil hend
  unfold State.addEntry at hwindow ⊢
  simp only [exec, execEntry, hwindow, rdList]

variable (hin : s.pos < s.len)
include hin

theorem rdList_header (hnibble : (s.buf.byte s.pos).toNat / 16 = 7) :
    rdList s.window = .ok (lo (s.buf.byte s.pos), s.bytesFrom (s.pos + 1)) := by
  rw [State.window_cons hin, rdList, if_pos (hi_eq_iff.2 hnibble)]

theorem rdList_mismatch (hnibble : (s.buf.byte s.pos).toNat / 16 ≠ 7) : rdList s.window = .error .tagMismatch := by
  rw [State.window_cons hin, rdList, if_neg (hi_ne_of_toNat hnibble)]

/-- A list header is consumed, and its count compared with seven. -/
theorem exec_entry_header (hnibble : (s.buf.byte s.pos).toNat / 16 = 7) :
    exec .entry s = .next (if lo (s.buf.byte s.pos) = 7 then (s.addEntry.advance 1).enter .leObjName
      else ((s.addEntry.advance 1).warn .wArityEntry none).enter .leObjName) := by
  have hread : rdList s.addEntry.window = .ok (lo (s.buf.byte s.pos), s.bytesFrom (s.pos + 1)) := rdList_header hin hnibble
  unfold State.addEntry at hread ⊢
  simp only [exec, execEntry, hread]

theorem exec_entry_mismatch (hnibble : (s.buf.byte s.pos).toNat / 16 ≠ 7) :
    exec .entry s = .next ((s.addEntry.warn .wArityEntry none).enter .leObjName) := by
  have hread : rdList s.addEntry.window = .error .tagMismatch := rdList_mismatch hin hnibble
  unfold State.addEntry at hread ⊢
  simp only [exec, execEntry, hread]

end

/-- Settles O29: the append leaves the bytes and the cursor, so the header read is the one at `s`; 77 is the header of seven. -/
theorem entryHeader : Obligations.EntryHeader := by
  unfold Obligations.EntryHeader
  intro s u hu
  obtain rfl : u = s.addEntry := hu
  refine ⟨exec_entry_end, fun hin hbyte => ?_, fun hin hbyte hnibble => ?_, fun hin hnibble => ?_⟩
  · rw [exec_entry_header hin (by rw [hbyte]; rfl), hbyte, if_pos (by decide)]
    rfl
  · have hcount : lo (s.buf.byte s.pos) ≠ 7 := fun h => hbyte (eq_tlByte_iff (h := 7).2 ⟨hi_eq_iff.2 hnibble, h⟩)
    rw [exec_entry_header hin hnibble, if_neg hcount]
    rfl
  · exact exec_entry_mismatch hin hnibble

end Sys2Proof.Machine
end

/-! Termination (R239, R321): a measure that every step of the running sequencer lowers. -/

section
namespace Sys2Proof

/-- How many operations a field takes at most from the operation `op` on (R125, R127, R137 to R141, R146, R183, R201). -/
def Op.depth : Op → Nat
  | .ostr | .xostr | .u8 | .u16 | .u32 | .u64 | .i8 | .i16 | .i32 | .i64 | .list | .time => 1
  | .ostrLen | .unsigned | .integer | .status | .listLen | .isOstr => 2
  | .ostrAny | .value | .peek => 3
  | .opt => 4

theorem Op.depth_pos (op : Op) : 0 < op.depth := by cases op <;> decide

theorem Op.depth_le (op : Op) : op.depth ≤ 4 := by cases op <;> decide

namespace Machine

theorem Slot.depth_reader (f : Slot) : f.reader.depth < Op.opt.depth := by cases f <;> decide

/-- An operation that follows another at a field has fewer behind it. -/
theorem Slot.depth_successors {f : Slot} {op op' : Op} (h : op' ∈ f.successors op) : op'.depth < op.depth := by
  cases op with
  | opt => rw [List.mem_singleton.1 h]; exact f.depth_reader
  | _ => grind [Slot.successors, Op.depth]

/-! The measure. -/

/-- How many steps of a message follow the field `f` at most, the entries still to come left out: 6 from the CRC field on, 4 a field,
and at the value list 15 entries, each a header and seven fields. -/
def Slot.stepsBehind : Slot → Nat
  | .openVersion | .closeSignature | .glGatewayTime => 6
  | .openRefTime | .closeArity | .glListSignature => 10
  | .openServerId | .leValueSignature => 14
  | .openReqField | .leValue => 18
  | .openClientId | .leScaler => 22
  | .openCodepage | .leUnit => 26
  | .openArity | .leValTime => 30
  | .leStatus => 34
  | .leObjName => 38
  | .glValList => 14 + 29 * Config.capEntries
  | .glSensorTime => 18 + 29 * Config.capEntries
  | .glListName => 22 + 29 * Config.capEntries
  | .glServerId => 26 + 29 * Config.capEntries
  | .glClientId => 30 + 29 * Config.capEntries
  | .glArity => 34 + 29 * Config.capEntries
  | .msgType => 39 + 29 * Config.capEntries
  | .abortOnError => 44 + 29 * Config.capEntries
  | .groupNo => 48 + 29 * Config.capEntries
  | .transactionId => 52 + 29 * Config.capEntries

/-- How many steps follow at most until the next message's first byte is passed or the block rests, with `n` entries left to decode. -/
def Position.stepsLeft (n : Nat) : Position → Nat
  | .idle | .done | .error => 0
  | .seekEnd => 1
  | .messageLoop => 2
  | .endByte | .verifyHeader => 3
  | .endEscape | .seekStart => 4
  | .eom => 5
  | .crcField => 6
  | .entryHeader => 43 + 29 * (n - 1)
  | .dispatch => 39 + 29 * Config.capEntries
  | .bodyList => 44 + 29 * Config.capEntries
  | .field f op => op.depth + f.stepsBehind + if f.inEntry then 29 * (n - 1) else 0

/-- The measure of termination: a message has a first byte of its own, and fewer than 512 steps. -/
def State.stepsLeft (s : State) : Nat := 512 * (s.len - s.pos) + s.seq.stepsLeft s.entriesLeft

/-- The measure falls where the cursor does not move back and fewer steps of the message are left. -/
theorem State.stepsLeft_lt {s t : State} (hlen : t.len = s.len) (hpos : s.pos ≤ t.pos)
    (h : t.seq.stepsLeft t.entriesLeft < s.seq.stepsLeft s.entriesLeft) : t.stepsLeft < s.stepsLeft := by
  unfold State.stepsLeft
  omega

theorem Position.stepsLeft_pos {p : Position} (h : p.resting = false) (n : Nat) : 0 < p.stepsLeft n := by
  cases p with
  | idle | done | error => cases h
  | field f op => exact Nat.add_pos_left (Nat.add_pos_left op.depth_pos _) _
  | _ => simp only [Position.stepsLeft]; omega

/-- Behind a check there are fewer steps, whatever the counter. -/
theorem Position.stepsLeft_exits {p q : Position} (h : p ∈ q.exits) (n m : Nat) : p.stepsLeft n < q.stepsLeft m := by
  cases q with
  | idle | seekStart | field | entryHeader | crcField | done | error => cases h
  | _ =>
    rw [List.mem_singleton.1 h]
    simp [Position.stepsLeft, Slot.stepsBehind, Slot.inEntry, Op.depth, Config.capEntries]

theorem State.stepsLeft_enter (s : State) (f : Slot) :
    (s.enter f).seq.stepsLeft s.entriesLeft ≤ 4 + f.stepsBehind + if f.inEntry then 29 * (s.entriesLeft - 1) else 0 :=
  Nat.add_le_add_right (Nat.add_le_add_right (Op.depth_le _) _) _

theorem State.stepsLeft_nextEntry (s : State) : s.nextEntry.seq.stepsLeft s.nextEntry.entriesLeft ≤ 14 + 29 * s.entriesLeft := by
  obtain ⟨-, heq⟩ | ⟨hne, heq⟩ := s.nextEntry_cases
  · rw [heq]
    exact (s.stepsLeft_enter _).trans (Nat.le_add_right 14 _)
  · rw [heq, State.goto_seq, State.goto_entriesLeft, Position.stepsLeft]
    omega

/-- Behind a field at most `stepsBehind` steps are left, and the entries to come; at the value list these are at most 15. -/
theorem State.stepsLeft_nextField {s : State} {f : Slot} (h : f = .glValList → s.entriesLeft ≤ Config.capEntries) :
    (s.nextField f).seq.stepsLeft (s.nextField f).entriesLeft ≤
      f.stepsBehind + if f.inEntry then 29 * (s.entriesLeft - 1) else 0 := by
  cases f with
  | glValList => exact s.stepsLeft_nextEntry.trans (Nat.add_le_add_left (Nat.mul_le_mul_left 29 (h rfl)) 14)
  | leValueSignature => exact State.stepsLeft_nextEntry _
  | abortOnError | msgType | openVersion | closeSignature | glGatewayTime => exact Nat.le_refl _
  | _ => exact State.stepsLeft_enter _ _

/-! One step. -/

/-- At the value list a legal place runs the two parts of `RD_LIST`. -/
theorem Position.legal_glValList {op : Op} (h : (Position.field .glValList op).legal = true) : op = .listLen ∨ op = .list := by
  simpa [Position.legal, Slot.ops, Slot.optional, Slot.reader, readerOps] using h

/-- A message's first byte pays for all of its steps. -/
theorem State.beginMessage_stepsLeft {s : State} (h : s.pos < s.len) : s.beginMessage.stepsLeft < 512 * (s.len - s.pos) := by
  have hsteps : s.beginMessage.seq.stepsLeft s.beginMessage.entriesLeft ≤ 56 + 29 * Config.capEntries :=
    State.stepsLeft_enter ((s.setEnv { s.env with msgStart := s.pos }).advance 1) .transactionId
  have hpos : s.beginMessage.pos = s.pos + 1 := rfl
  have hlen : s.beginMessage.len = s.len := rfl
  rw [Config.capEntries] at hsteps
  rw [State.stepsLeft, hpos, hlen]
  omega

/-- Every step of the running sequencer lowers the measure. -/
theorem State.Moves.stepsLeft_lt {s t : State} (h : s.CursorInv) (hrun : s.resting = false) (hm : s.Moves t) :
    t.stepsLeft < s.stepsLeft := by
  have hpos : 0 < s.seq.stepsLeft s.entriesLeft := Position.stepsLeft_pos hrun _
  cases hm with
  | fatal c routine => exact State.stepsLeft_lt routine.len routine.forward hpos
  | check routine place => exact State.stepsLeft_lt routine.len routine.forward (Position.stepsLeft_exits place _ _)
  | closing place _ routine next =>
    exact State.stepsLeft_lt routine.len routine.forward (by simp [place, next, Position.stepsLeft])
  | found k place =>
    exact State.stepsLeft_lt rfl (by rw [h.atStart place]; exact Nat.zero_le _) (by simp [place, Position.stepsLeft])
  | lost => exact State.stepsLeft_lt (t := State.raiseFatal { s with pos := s.len } _) rfl (h.inBuffer hrun) hpos
  | message _ inside => exact (State.beginMessage_stepsLeft inside).trans_le (Nat.le_add_right _ _)
  | goes place next routine left next_eq =>
    refine State.stepsLeft_lt routine.len routine.forward ?_
    rw [place, next_eq, left]
    exact Nat.add_lt_add_right (Nat.add_lt_add_right (Slot.depth_successors next) _) _
  | @done u f op place routine left count =>
    have hbehind := u.stepsLeft_nextField (f := f) fun hf => count hf (by subst hf; exact Position.legal_glValList (place ▸ h.legal))
    have hnext := routine.trans (u.routine_nextField f)
    have hleft : (if f.inEntry then 29 * (u.entriesLeft - 1) else 0) = if f.inEntry then 29 * (s.entriesLeft - 1) else 0 :=
      ite_congr rfl (fun hf => by rw [left (by rintro rfl; cases hf)]) fun _ => rfl
    refine State.stepsLeft_lt hnext.len hnext.forward (hbehind.trans_lt ?_)
    rw [place, Position.stepsLeft, hleft, Nat.add_assoc]
    exact Nat.lt_add_of_pos_left op.depth_pos
  | close place | list place =>
    refine State.stepsLeft_lt rfl (Nat.le_refl _) ((State.stepsLeft_enter _ _).trans_lt ?_)
    simp [place, Position.stepsLeft, Slot.stepsBehind, Slot.inEntry, Config.capEntries]
  | entry place routine left next =>
    refine State.stepsLeft_lt routine.len routine.forward ?_
    rw [place, next, left]
    exact Nat.add_lt_add_right (by decide : Op.ostrLen.depth + Slot.leObjName.stepsBehind < 43) _
  | entryCut | crcCut => exact State.stepsLeft_lt rfl (Nat.le_refl _) hpos
  | crc place _ _ routine next =>
    exact State.stepsLeft_lt routine.len routine.forward (by simp [place, next, Position.stepsLeft])

theorem Position.ne_idle_of_exits {p q : Position} (h : p ∈ q.exits) : p ≠ .idle := by
  rintro rfl
  cases q <;> simp [Position.exits] at h

/-- The running sequencer never goes to Idle. -/
theorem State.Moves.ne_idle {s t : State} (hm : s.Moves t) : t.seq ≠ .idle := by
  cases hm with
  | fatal | found | lost | message | close | list | entryCut | crcCut => nofun
  | check _ place => exact Position.ne_idle_of_exits place
  | closing _ _ _ next | goes _ _ _ _ next | entry _ _ _ next | crc _ _ _ _ next => rw [next]; nofun
  | @done u f =>
    intro hidle
    have hin := u.nextField_inMessage f
    rw [hidle] at hin
    cases hin

/-! The run. -/

/-- Between a DECODE and its end: no command pending, the cursor's invariant, not in Idle. -/
structure State.Decoding (s : State) : Prop where
  cmd : s.cmd = none
  cursor : s.CursorInv
  place : s.seq ≠ .idle

theorem State.Decoding.step {s t : State} (h : s.Decoding) (hrun : s.resting = false) (hstep : Machine.step s = .next t) :
    t.Decoding ∧ t.stepsLeft < s.stepsLeft := by
  obtain ⟨hcmd, -⟩ | ⟨hrest, -⟩ | ⟨-, -, hm⟩ := step_cases hstep
  · exact nomatch h.cmd.symm.trans hcmd
  · exact nomatch (hrest h.cmd).symm.trans hrun
  · obtain ⟨-, -, -, -, hcmd, -⟩ := hostRegistersKept.2 s t hstep
    exact ⟨⟨hcmd, h.cursor.of_moves hrun hm, hm.ne_idle⟩, hm.stepsLeft_lt h.cursor hrun⟩

theorem State.Decoding.ended {s : State} (h : s.Decoding) (hrest : s.resting = true) : s.seq = .done ∨ s.seq = .error := by
  have hplace := h.place
  rw [State.resting] at hrest
  cases hseq : s.seq with
  | done => exact .inl rfl
  | error => exact .inr rfl
  | idle => exact absurd hseq hplace
  | _ => rw [hseq] at hrest; cases hrest

/-- A run of the sequencer ends within its measure. -/
theorem State.Decoding.terminates {s : State} (h : s.Decoding) :
    ∃ n t, n ≤ s.stepsLeft ∧ s.steps n = .next t ∧ t.cmd = none ∧ (t.seq = .done ∨ t.seq = .error) := by
  induction hleft : s.stepsLeft using Nat.strong_induction_on generalizing s with
  | _ m ih =>
    subst hleft
    cases hrest : s.resting with
    | true => exact ⟨0, s, Nat.zero_le _, rfl, h.cmd, h.ended hrest⟩
    | false =>
      obtain ⟨t, hstep⟩ := stepAlwaysAnswers s
      obtain ⟨ht, hlt⟩ := h.step hrest hstep
      obtain ⟨n, u, hn, hsteps, hend⟩ := ih t.stepsLeft hlt ht rfl
      exact ⟨n + 1, u, Nat.succ_le_of_lt (hn.trans_lt hlt), (State.steps_succ hstep n).trans hsteps, hend⟩

theorem exec_decode_resting {s : State} (h : s.resting = true) : exec .decode s = .next s.beginDecode :=
  congrArg Host.Outcome.next (if_pos h)

theorem State.beginDecode_decoding (s : State) (h : s.cmd = none) : s.beginDecode.Decoding := ⟨h, s.beginDecode_cursorInv, nofun⟩

/-- Settles O57: DECODE starts a run, and a run ends within its measure, which is 512 * LEN + 4 at its start. -/
theorem decodeTerminates : Obligations.DecodeTerminates := by
  unfold Obligations.DecodeTerminates
  intro s hcmd hrest
  have hstart : step s = .next s.clearCmd.beginDecode := (step_of_decode_pending hcmd hrest).trans (exec_decode_resting hrest)
  have hbound : s.clearCmd.beginDecode.stepsLeft = 512 * s.len + 4 := rfl
  obtain ⟨n, t, hn, hsteps, hend⟩ := (State.beginDecode_decoding s.clearCmd rfl).terminates
  exact ⟨n + 1, t, by omega, (State.steps_succ hstart n).trans hsteps, hend⟩

end Machine
end Sys2Proof
end

/-! The Frame Decoder (R220 to R236): the searches, the checks and the governed checks row by row, the dispatch of the message type, and the
envelope's fields. -/

section
namespace Sys2Proof.Machine

open Sys2Proof

/-! The step at a place outside a field. -/

theorem step_row {s : State} {i : Instr} (hcmd : s.cmd = none) (hrow : s.seq.row = some i) : step s = exec i s :=
  (step_of_cmd_none hcmd).trans (sequence_row hrow)

/-- Settles O46: at a place whose context is one pattern the step runs the place's row, whether the bytes decode or not. -/
theorem stepRunsTheCheck : Obligations.StepRunsTheCheck := by
  unfold Obligations.StepRunsTheCheck
  intro s c e i hcmd _ _ hplace
  have hrow : ∀ r : Position × Instr, r ∈ [(Position.seekStart, Instr.start), (.verifyHeader, .ver), (.messageLoop, .msg),
      (.bodyList, .bodyList), (.entryHeader, .entry), (.eom, .eom), (.endEscape, .esc), (.endByte, .endByte)] →
      r.1.row = some r.2 := by decide
  exact step_row hcmd (hrow (s.seq, i) hplace)

/-- Settles O33: SeekEnd by its own arm, a resting place by having none. -/
theorem seekEndAndRest : Obligations.SeekEndAndRest := by
  unfold Obligations.SeekEndAndRest
  intro s hcmd
  exact ⟨fun hseq => (step_of_cmd_none hcmd).trans (sequence_seekEnd hseq),
    fun hrest => (step_of_cmd_none hcmd).trans (sequence_resting hrest)⟩

/-- Settles O42: each of the three places is resting, so DECODE is accepted. -/
theorem State.decodeCommand : Obligations.DecodeCommand := by
  unfold Obligations.DecodeCommand
  intro s hseq
  have hrest : s.resting = true := by rcases hseq with h | h | h <;> rw [State.resting, h] <;> rfl
  exact exec_decode_resting hrest

/-! SeekStart (R221, R222). -/

/-- The pattern stands at the offset `k`, inside the buffer. -/
def State.patternAt (s : State) (pat : List Byte) (k : Nat) : Prop := k + pat.length ≤ s.len ∧ s.buf.bytes k pat.length = pat

theorem State.patternAt_iff (s : State) {pat : List Byte} (hpat : pat ≠ []) (k : Nat) :
    ((s.bytesFrom 0).drop k).take pat.length = pat ↔ s.patternAt pat k := by
  unfold State.patternAt
  by_cases hin : k + pat.length ≤ s.len
  · rw [State.bytesFrom_drop (by omega), Nat.zero_add, State.bytesFrom_take hin]
    exact (and_iff_right hin).symm
  · refine iff_of_false (fun heq => ?_) fun h => hin h.1
    have hlen := congrArg List.length heq
    have hpos := List.length_pos_of_ne_nil hpat
    rw [List.length_take, List.length_drop, State.bytesFrom_length] at hlen
    omega

theorem seekPattern_ne_nil (m : StartMode) : seekPattern m ≠ [] := by cases m <;> decide

/-- START stops at the first place of its pattern. -/
theorem exec_start_found {s : State} {k : Nat} (h : s.patternAt (seekPattern s.cfg.startMode) k)
    (hfirst : ∀ j, j < k → ¬ s.patternAt (seekPattern s.cfg.startMode) j) :
    exec .start s = .next ({ s with pos := k }.goto .verifyHeader) := by
  have hpat := seekPattern_ne_nil s.cfg.startMode
  have hfind : findPattern (seekPattern s.cfg.startMode) (s.bytesFrom 0) = some k :=
    (findPattern_some hpat).2 ⟨(s.patternAt_iff hpat k).2 h, fun j hj heq => hfirst j hj ((s.patternAt_iff hpat j).1 heq)⟩
  simp only [exec, execStart, hfind]

/-- START without a place of its pattern is the fatal error at LEN. -/
theorem exec_start_lost {s : State} (h : ∀ k, ¬ s.patternAt (seekPattern s.cfg.startMode) k) :
    exec .start s = .next ({ s with pos := s.len }.raiseFatal .sizeError) := by
  have hpat := seekPattern_ne_nil s.cfg.startMode
  have hfind : findPattern (seekPattern s.cfg.startMode) (s.bytesFrom 0) = none :=
    (findPattern_none hpat).2 fun k heq => h k ((s.patternAt_iff hpat k).1 heq)
  simp only [exec, execStart, hfind]

/-- Settles O21: the search of the model finds the least place of the pattern inside the buffer, where there is one. -/
theorem seekStartFirstMatch : Obligations.SeekStartFirstMatch := by
  unfold Obligations.SeekStartFirstMatch
  intro s pat hmode
  obtain rfl : pat = seekPattern s.cfg.startMode := by
    obtain ⟨hmode, rfl⟩ | ⟨hmode, rfl⟩ := hmode <;> rw [hmode] <;> rfl
  refine ⟨fun k hin hbytes hfirst => ?_, fun hnone => ?_⟩
  · exact exec_start_found ⟨hin, hbytes⟩ fun j hj ⟨_, hbytes⟩ => hfirst j hj hbytes
  · exact exec_start_lost fun k ⟨hin, hbytes⟩ => hnone k hin hbytes

/-- Where START goes on to VerifyHeader, its pattern stands at the cursor. -/
theorem exec_start_patternAt {s t : State} (hexec : exec .start s = .next t) (hseq : t.seq = .verifyHeader) :
    t.cfg = s.cfg ∧ t.cmd = s.cmd ∧ t.patternAt (seekPattern s.cfg.startMode) t.pos := by
  have hpat := seekPattern_ne_nil s.cfg.startMode
  cases hfind : findPattern (seekPattern s.cfg.startMode) (s.bytesFrom 0) with
  | none =>
    simp only [exec, execStart, hfind] at hexec
    cases hexec
    cases hseq
  | some k =>
    simp only [exec, execStart, hfind] at hexec
    cases hexec
    obtain ⟨hat, -⟩ := (findPattern_some hpat).1 hfind
    exact ⟨rfl, rfl, (s.patternAt_iff hpat k).1 hat⟩

/-! VerifyHeader (R223). -/

section
variable {s : State}

theorem exec_ver_short (h : s.len < s.pos + 8) : exec .ver s = .next (s.raiseFatal .sizeError) :=
  congrArg Host.Outcome.next (if_pos h)

variable (hin : s.pos + 8 ≤ s.len)
include hin

theorem exec_ver_mismatch (h : ¬ (s.buf.bytes s.pos 4 = escBytes ∧ s.buf.bytes (s.pos + 4) 4 = verBytes)) :
    exec .ver s = .next (s.raiseFatal .headerMismatch) :=
  congrArg Host.Outcome.next ((if_neg (Nat.not_lt.2 hin)).trans (if_neg h))

theorem exec_ver_passed (h : s.buf.bytes s.pos 4 = escBytes ∧ s.buf.bytes (s.pos + 4) 4 = verBytes) :
    exec .ver s = .next ((s.advance 8).goto .messageLoop) :=
  congrArg Host.Outcome.next ((if_neg (Nat.not_lt.2 hin)).trans (if_pos h))

end

/-- The start pattern is the escape and the version bytes. -/
theorem State.patternAt_startBytes {s : State} {k : Nat} (h : s.patternAt startBytes k) :
    k + 8 ≤ s.len ∧ s.buf.bytes k 4 = escBytes ∧ s.buf.bytes (k + 4) 4 = verBytes := by
  obtain ⟨hin, hbytes⟩ := h
  have hsplit : s.buf.bytes k 4 ++ s.buf.bytes (k + 4) 4 = escBytes ++ verBytes := (s.buf.bytes_add k 4 4).symm.trans hbytes
  exact ⟨hin, List.append_inj hsplit (Memory.bytes_length ..)⟩

/-- Settles O22: the row by its three outcomes; in pattern8 mode SeekStart has matched all eight bytes. -/
theorem verifyHeader : Obligations.VerifyHeader := by
  unfold Obligations.VerifyHeader
  refine ⟨fun s => ⟨exec_ver_short, fun hin hwrong => ?_, fun hin hesc hver => exec_ver_passed hin ⟨hesc, hver⟩⟩, ?_⟩
  · exact exec_ver_mismatch hin fun ⟨hesc, hver⟩ => hwrong.elim (fun h => h hesc) fun h => h hver
  · intro s t hcmd hmode hseq hstep hnext
    have hexec : exec .start s = .next t := (step_row hcmd (by rw [hseq]; rfl)).symm.trans hstep
    obtain ⟨-, hcmd', hat⟩ := exec_start_patternAt hexec hnext
    rw [hmode] at hat
    obtain ⟨hin, hbytes⟩ := State.patternAt_startBytes hat
    rw [step_row (hcmd'.trans hcmd) (by rw [hnext]; rfl), exec_ver_passed hin hbytes]
    rfl

/-! The loop guard (R224, R225). -/

/-- Settles O23: FINISHED first, then the byte at the cursor. -/
theorem messageGuard : Obligations.MessageGuard := by
  unfold Obligations.MessageGuard
  intro s
  refine ⟨fun hfin => ?_, fun hfin hin hbyte => ?_, fun hfin hno => ?_⟩
  · exact congrArg Host.Outcome.next (if_pos hfin)
  · simp only [exec, execMsg, hfin, Bool.false_eq_true, if_false, hin, hbyte, messageMark, and_self, if_true]
    rfl
  · have hmark : ¬ (s.pos < s.len ∧ s.buf.byte s.pos = messageMark) := fun ⟨hin, hbyte⟩ =>
      hno.elim (Nat.not_le.2 hin) fun h => h hbyte
    simp only [exec, execMsg, hfin, Bool.false_eq_true, if_false, hmark]
    rfl

/-! Governed checks (R282). -/

section
variable {s : State} {k : Check}

theorem State.governed_of_fatal (h : s.cfg.policy.treatment k s.env.abortOnError = .fatal) (c : FatalCode) (w : EventCode)
    (next : State → State) : s.governed k c w next = s.raiseFatal c := by
  rw [State.governed, h]

theorem State.governed_of_warn (h : s.cfg.policy.treatment k s.env.abortOnError = .warn) (c : FatalCode) (w : EventCode)
    (next : State → State) : s.governed k c w next = next (s.warn w none) := by
  rw [State.governed, h]

end

theorem Policy.fatalWhenTolerant_bit (a : Byte) : Policy.fatalWhenTolerant.getLsbD a.toNat = decide (a = 0xFF) := by
  have hbit : Config.tolerant.toNat < 256 := by decide
  rw [Policy.fatalWhenTolerant, BitVec.getLsbD_twoPow, decide_eq_true hbit, Bool.true_and, decide_eq_decide, BitVec.toNat_inj, eq_comm]
  rfl

theorem Policy.fatalWhenStrict_bit (a : Byte) : Policy.fatalWhenStrict.getLsbD a.toNat = decide (a ≠ 0xFF) := by
  have hbit : a.toNat < 256 := a.isLt
  rw [Policy.fatalWhenStrict, BitVec.getLsbD_not, decide_eq_true hbit, Bool.true_and, Policy.fatalWhenTolerant_bit, decide_not]

/-- The default table at the message-body list header is fatal exactly when abort-on-error is TOLERANT. -/
theorem default_bodyListArity (a : Byte) : Policy.default.treatment .bodyListArity a = .fatal ↔ a = 0xFF := by
  simp only [Policy.treatment, Policy.default, Policy.fatalWhenTolerant_bit]
  by_cases h : a = 0xFF <;> simp [h]

/-- At the other three checks the default table warns exactly then. -/
theorem default_warn (k : Check) (hk : k ≠ .bodyListArity) (a : Byte) : Policy.default.treatment k a = .warn ↔ a = 0xFF := by
  have hrow : Policy.default.treatment k a = if Policy.fatalWhenStrict.getLsbD a.toNat then .fatal else .warn := by
    cases k with
    | bodyListArity => exact absurd rfl hk
    | _ => rfl
  rw [hrow, Policy.fatalWhenStrict_bit]
  by_cases h : a = 0xFF <;> simp [h]

/-! The message-body list header (R226). -/

/-- Another byte than 72 is the failed check, behind the byte where it is a list header at all. -/
theorem exec_bodyList_mismatch {s : State} (hin : s.pos < s.len) (hbyte : s.buf.byte s.pos ≠ bodyListMark) :
    exec .bodyList s = .next ((if (s.buf.byte s.pos).toNat / 16 = 7 then s.advance 1 else s).governed .bodyListArity .syntaxError
      .wArityBody (·.enter .msgType)) := by
  by_cases hnibble : (s.buf.byte s.pos).toNat / 16 = 7
  · have hcount : lo (s.buf.byte s.pos) ≠ 2 := fun h => hbyte (eq_tlByte_iff (h := 7).2 ⟨hi_eq_iff.2 hnibble, h⟩)
    simp only [exec, execBodyList, rdList_header hin hnibble, hcount, hnibble, if_false, if_true]
  · simp only [exec, execBodyList, rdList_mismatch hin hnibble, hnibble, if_false]

/-- Settles O26: the end of the buffer, the list of two, and any other byte by POLICY. -/
theorem bodyListCheck : Obligations.BodyListCheck := by
  unfold Obligations.BodyListCheck
  intro s
  refine ⟨fun hend => ?_, fun hin hbyte => ?_, fun u hin hbyte hu => ?_, fun hpolicy => ?_⟩
  · simp only [exec, execBodyList, State.window_nil hend, rdList]
  · have hread := rdList_header hin (by rw [hbyte]; rfl)
    rw [hbyte] at hread
    simp only [exec, execBodyList, hread]
    rfl
  · obtain rfl : u = if (s.buf.byte s.pos).toNat / 16 = 7 then s.advance 1 else s := hu
    rw [exec_bodyList_mismatch hin hbyte]
    refine ⟨fun hfatal => ?_, fun hwarn => ?_⟩
    · rw [State.governed_of_fatal (by split <;> exact hfatal)]
    · rw [State.governed_of_warn (by split <;> exact hwarn)]
      rfl
  · rw [hpolicy]
    exact default_bodyListArity _

/-! The end-of-message byte and the closing sequence (R234, R235). -/

theorem State.afterEom_eq (s : State) : s.afterEom = s.goto (if s.flags.finished then .endEscape else .messageLoop) := by
  unfold State.afterEom
  split <;> rfl

section
variable {s : State}

theorem exec_eom_short (h : s.len ≤ s.pos) : exec .eom s = .next (s.raiseFatal .sizeError) := congrArg Host.Outcome.next (if_pos h)

theorem exec_eom_passed (hin : s.pos < s.len) (h : s.buf.byte s.pos = eomMark) : exec .eom s = .next (s.advance 1).afterEom :=
  congrArg Host.Outcome.next ((if_neg (Nat.not_le.2 hin)).trans (if_pos h))

theorem exec_eom_mismatch (hin : s.pos < s.len) (h : s.buf.byte s.pos ≠ eomMark) :
    exec .eom s = .next (s.governed .eom .syntaxError .wEom State.afterEom) :=
  congrArg Host.Outcome.next ((if_neg (Nat.not_le.2 hin)).trans (if_neg h))

theorem exec_esc_short (h : s.len < s.pos + 4) : exec .esc s = .next (s.raiseFatal .sizeError) := congrArg Host.Outcome.next (if_pos h)

theorem exec_esc_passed (hin : s.pos + 4 ≤ s.len) (h : s.buf.bytes s.pos 4 = escBytes) :
    exec .esc s = .next ((s.advance 4).goto .endByte) :=
  congrArg Host.Outcome.next ((if_neg (Nat.not_lt.2 hin)).trans (if_pos h))

theorem exec_esc_mismatch (hin : s.pos + 4 ≤ s.len) (h : s.buf.bytes s.pos 4 ≠ escBytes) :
    exec .esc s = .next (s.governed .endEscape .headerMismatch .wEndEscape (·.goto .endByte)) :=
  congrArg Host.Outcome.next ((if_neg (Nat.not_lt.2 hin)).trans (if_neg h))

theorem exec_endByte_short (h : s.len ≤ s.pos) : exec .endByte s = .next (s.raiseFatal .sizeError) :=
  congrArg Host.Outcome.next (if_pos h)

theorem exec_endByte_passed (hin : s.pos < s.len) (h : s.buf.byte s.pos = endMark) :
    exec .endByte s = .next ((s.advance 1).goto .messageLoop) :=
  congrArg Host.Outcome.next ((if_neg (Nat.not_le.2 hin)).trans (if_pos h))

theorem exec_endByte_mismatch (hin : s.pos < s.len) (h : s.buf.byte s.pos ≠ endMark) :
    exec .endByte s = .next (s.governed .endByte .headerMismatch .wEndByte (·.goto .messageLoop)) :=
  congrArg Host.Outcome.next ((if_neg (Nat.not_le.2 hin)).trans (if_neg h))

end

/-- Settles O31: the bound, the byte, and the governed check; both ways on lead to the same place (`State.afterEom_eq`). -/
theorem eomCheck : Obligations.EomCheck := by
  unfold Obligations.EomCheck
  rintro s _ rfl
  refine ⟨exec_eom_short, fun hin hbyte => ?_, fun hin hbyte hfatal => ?_, fun hin hbyte hwarn => ?_, fun hpolicy => ?_⟩
  · rw [exec_eom_passed hin hbyte, State.afterEom_eq]
    rfl
  · rw [exec_eom_mismatch hin hbyte, State.governed_of_fatal hfatal]
  · rw [exec_eom_mismatch hin hbyte, State.governed_of_warn hwarn, State.afterEom_eq]
    rfl
  · rw [hpolicy]
    exact default_warn _ (by decide) _

/-- Settles O32: each of the two rows by its bound, its bytes and its governed check. -/
theorem closingSequence : Obligations.ClosingSequence := by
  unfold Obligations.ClosingSequence
  intro s
  refine ⟨exec_esc_short, exec_esc_passed, fun hin hbytes hfatal => ?_, fun hin hbytes hwarn => ?_, exec_endByte_short,
    exec_endByte_passed, fun hin hbyte hfatal => ?_, fun hin hbyte hwarn => ?_, fun hpolicy => ?_⟩
  · rw [exec_esc_mismatch hin hbytes, State.governed_of_fatal hfatal]
  · rw [exec_esc_mismatch hin hbytes, State.governed_of_warn hwarn]
    rfl
  · rw [exec_endByte_mismatch hin hbyte, State.governed_of_fatal hfatal]
  · rw [exec_endByte_mismatch hin hbyte, State.governed_of_warn hwarn]
    rfl
  · rw [hpolicy]
    exact ⟨default_warn _ (by decide) _, default_warn _ (by decide) _⟩

/-! The dispatch by the message type (R232). -/

/-- The message-type field rebuilt from ENV.msgType decodes to the row of its value. -/
theorem step_dispatch {s : State} (hcmd : s.cmd = none) (hseq : s.seq = .dispatch) : step s = exec (dispatchType s.env.msgType) s := by
  have hbytes : encode (dispatchType s.env.msgType) = s.fetchBytes := by rw [encode_dispatchType, State.fetchBytes, hseq]
  have hdec : decode .messageType s.fetchBytes = .ok (dispatchType s.env.msgType) := by
    rw [← hbytes, ← dispatchType_ctx s.env.msgType]
    exact decode_of_prefix (dispatchType_wellFormed _) (List.prefix_refl _)
  rw [step_of_decode_ok hcmd (by rw [hseq]; rfl) hdec, settleOut_of_ne_field (by simp [hseq])]

/-- Settles O28: the four rows as they are, and the step by the value of ENV.msgType. -/
theorem dispatchBody : Obligations.DispatchBody := by
  unfold Obligations.DispatchBody
  intro s
  refine ⟨rfl, rfl, rfl, fun _ => rfl, fun hcmd hseq => ?_⟩
  rw [step_dispatch hcmd hseq]
  refine ⟨fun h => by rw [h]; rfl, fun h => by rw [h]; rfl, fun h => by rw [h]; rfl, fun hopen hlist hclose => ?_⟩
  rw [dispatchType_of_unknown ⟨hopen, hclose, hlist⟩]
  rfl

/-! The envelope's fields (R225, R227): a number that is read, missed or cut short, and the transaction ID. -/

section
variable {s : State} {f : Slot} {op : Op} {tag : Byte} {w : Nat} {mk : Nat → Instr} {val : Nat → Val} {ones : Val}
  (hread : ReadsNumber op tag w mk val ones) (hcmd : s.cmd = none) (hseq : s.seq = .field f op) (hplain : f.dispatches = false)
include hread hcmd hseq hplain

/-- The tag and the whole number at the cursor are passed and stored (R180). -/
theorem ReadsNumber.step_whole (hlast : f.successors op = []) (hin : s.pos + (1 + w) ≤ s.len) (htag : s.buf.byte s.pos = tag) :
    step s = .next (s.fieldDone f op (1 + w) (val (s.memRead (s.pos + 1) w))) := by
  obtain ⟨-, hcases⟩ := hread
  obtain ⟨-, -, -, hdec, hexec, -⟩ := hcases s
  rw [← Nat.add_assoc] at hin
  rw [step_field_ok hcmd hseq (hdec hin htag) (hexec _ hin), State.settle_of_last _ hlast, State.finish_of_ok (.inl hplain) rfl,
    Nat.add_assoc, State.fieldDone, State.passed, State.goto, ← hseq]

/-- Another tag is not consumed: the field takes its sentinel, with a warning (R180, R316). -/
theorem ReadsNumber.step_missed (hin : s.pos < s.len) (htag : s.buf.byte s.pos ≠ tag) :
    step s = .next (((s.return .tagMismatch (sentinelAt f op)).missField f).nextField f) := by
  rw [step_field_error hcmd hseq (hread.mismatch hin htag), State.finish_of_tagMismatch (.inl hplain) rfl]
  rfl

/-- The buffer ends in front of the number or inside it (R122, R180). -/
theorem ReadsNumber.step_cut (hcut : s.len ≤ s.pos ∨ (s.buf.byte s.pos = tag ∧ s.len < s.pos + (1 + w))) :
    step s = .next ((s.return .short (sentinelAt f op)).raiseFatal .sizeError) := by
  obtain ⟨-, hcases⟩ := hread
  obtain ⟨hend, -, hshort, -⟩ := hcases s
  have hdec : decode (.lex op) s.window = .error .short := by
    by_cases hin : s.pos < s.len
    · obtain ⟨htag, hcut⟩ := hcut.resolve_left (Nat.not_le.2 hin)
      exact hshort hin htag (by omega)
    · exact hend (Nat.not_lt.1 hin)
  rw [step_field_error hcmd hseq hdec, State.finish_of_cut (.inl hplain) rfl]
  rfl

end

theorem State.memRead_one (s : State) (a : Nat) : s.memRead a 1 = (s.buf.byte a).toNat := by
  simp only [State.memRead, Nat.pow_zero, Nat.mul_one, Nat.add_zero]

/-- Settles O24: the two fields are read by `RD_U8` and differ in the register and the place behind. -/
theorem envelopeByteFields : Obligations.EnvelopeByteFields := by
  unfold Obligations.EnvelopeByteFields
  intro s hcmd
  obtain ⟨hu8, -⟩ := fixedWidthReaders
  have hvalue : BitVec.ofNat 8 (s.memRead (s.pos + 1) 1) = s.buf.byte (s.pos + 1) := by
    rw [State.memRead_one, BitVec.ofNat_toNat, BitVec.setWidth_eq]
  refine ⟨fun hseq => ⟨fun hin htag => ?_, hu8.step_missed hcmd hseq rfl, hu8.step_cut hcmd hseq rfl⟩,
    fun hseq => ⟨fun hin htag => ?_, hu8.step_missed hcmd hseq rfl, hu8.step_cut hcmd hseq rfl⟩⟩
  · rw [hu8.step_whole hcmd hseq rfl rfl hin htag, hvalue]
    rfl
  · rw [hu8.step_whole hcmd hseq rfl rfl hin htag, hvalue]
    rfl

/-- Settles O27: `RD_U16`, and behind a missed type the dispatch of 0xFFFF. -/
theorem messageTypeField : Obligations.MessageTypeField := by
  unfold Obligations.MessageTypeField
  intro s hcmd hseq
  obtain ⟨-, hu16, -⟩ := fixedWidthReaders
  refine ⟨fun hin htag => ?_, hu16.step_cut hcmd hseq rfl, fun t hin htag ht => ?_⟩
  · rw [hu16.step_whole hcmd hseq rfl rfl hin htag, State.memRead_two]
    rfl
  · have hmissed : step s = .next t := ht ▸ hu16.step_missed hcmd hseq rfl hin htag
    have hunknown : step t = .next (t.raiseFatal .unknownMessageType) := by
      subst ht
      exact step_dispatch hcmd rfl
    exact ⟨hmissed, (State.steps_succ hmissed 1).trans (State.steps_succ hunknown 0)⟩

/-- OSTR_LEN at another tag is the field's missed read (R125). -/
theorem step_ostrLen_missed {s : State} {f : Slot} (hcmd : s.cmd = none) (hseq : s.seq = .field f .ostrLen) (hin : s.pos < s.len)
    (hnibble : (s.buf.byte s.pos).toNat / 16 ≠ 0) :
    step s = .next ((State.missField (s.return .tagMismatch (.octets [])) f).nextField f) := by
  have hlen : ostrLen (s.buf.byte s.pos) = -1 := by rw [ostrLen_eq, if_pos hnibble]
  have hstep := step_look hcmd (State.window_cons hin) (.int (-1)) hseq (fun _ => rfl) fun u => by rw [← hlen]; rfl
  have hsettle : (s.return .ok (.int (-1))).settle f .ostrLen = (s.return .tagMismatch (.octets [])).finish f .ostrLen := rfl
  rw [hstep, hsettle, State.finish_of_tagMismatch (.inr rfl) rfl]

/-- A byte of type nibble 0 whose payload is inside the buffer stands in front of a short octet string (R82). -/
theorem State.ostrAt_of_byte {s : State} (hin : s.pos < s.len) (hostr : (s.buf.byte s.pos).toNat < 16)
    (hwhole : s.pos + 1 + ((s.buf.byte s.pos).toNat - 1) ≤ s.len) :
    s.ostrAt (lo (s.buf.byte s.pos)) (s.buf.bytes (s.pos + 1) ((s.buf.byte s.pos).toNat - 1)) := by
  have htl : tlByte 0 (lo (s.buf.byte s.pos)) = s.buf.byte s.pos := by rw [← hi_eq_zero_iff.2 hostr, tlByte_hi_lo]
  refine ⟨by rw [Memory.bytes_length, ostrPayload_lo hostr],
    (s.bytesFrom (s.pos + 1)).drop ((s.buf.byte s.pos).toNat - 1), ?_⟩
  rw [htl, State.window_cons hin, ← State.bytesFrom_take hwhole, List.cons_append, List.take_append_drop]

/-- Settles O25: a short octet string's length, then its payload, whole or cut; another tag is OSTR_LEN's miss. -/
theorem transactionIdField : Obligations.TransactionIdField := by
  unfold Obligations.TransactionIdField
  intro s n hcmd hseq hin
  refine ⟨?_, ?_, fun hbyte => ?_⟩
  · rintro rfl hostr hwhole
    have hread := State.reads_ostrLen hcmd (State.ostrAt_of_byte hin hostr hwhole) .transactionId
    rw [hread.steps hseq, Memory.bytes_length, Nat.add_assoc]
    rfl
  · rintro rfl hostr hcut
    have hhi := hi_eq_zero_iff.2 hostr
    obtain ⟨r, hlen⟩ := (State.leads_ostrLen hcmd (State.window_cons hin) hhi .transactionId).step hseq
    have hdec : decode (.lex .ostr) (s.atField .transactionId .ostr r).window = .error .short := decode_ostr_short hin hostr hcut
    rw [State.steps_succ hlen, State.steps_succ (step_field_error (s := s.atField .transactionId .ostr r) hcmd rfl hdec),
      State.finish_of_cut (.inr rfl) rfl]
    rfl
  · exact step_ostrLen_missed hcmd hseq hin (by omega)

end Sys2Proof.Machine
end

/-! The Query Interface (R260 to R262): the first entry of a name by its place in the Document, the unit table, and the effective value by
the kind of the entry's value. -/

section
namespace Sys2Proof.Machine

open Sys2Proof

/-! `getElementByObis` (R260). -/

section
variable {d : Document} {code : Vector Byte 6} {e : ListEntry}

/-- The entry answered has the name, and nothing in front of it has: neither a list before its own nor an entry before it there. -/
theorem getElementByObis_eq_some_iff : getElementByObis d code = some e ↔
    ∃ lists r later before after, d.lists = lists ++ r :: later ∧ r.entries = before ++ e :: after ∧ e.objName = code.toList ∧
      (∀ q ∈ lists, ∀ x ∈ q.entries, x.objName ≠ code.toList) ∧ ∀ x ∈ before, x.objName ≠ code.toList := by
  rw [getElementByObis, List.flatMap_def, List.find?_flatten_eq_some_iff]
  constructor
  · rintro ⟨hname, ls, before, after, rs, hsplit, hlists, hbefore⟩
    obtain ⟨lists, rest, hdoc, rfl, hrest⟩ := List.map_eq_append_iff.1 hsplit
    obtain ⟨r, later, rfl, hentries, -⟩ := List.map_eq_cons_iff.1 hrest
    exact ⟨lists, r, later, before, after, hdoc, hentries, by simpa using hname, by simpa using hlists, by simpa using hbefore⟩
  · rintro ⟨lists, r, later, before, after, hdoc, hentries, hname, hlists, hbefore⟩
    refine ⟨by simpa using hname, lists.map (·.entries), before, after, later.map (·.entries), ?_, by simpa using hlists,
      by simpa using hbefore⟩
    rw [hdoc, List.map_append, List.map_cons, hentries]

theorem getElementByObis_eq_none_iff :
    getElementByObis d code = none ↔ ∀ r ∈ d.lists, ∀ x ∈ r.entries, x.objName ≠ code.toList := by
  rw [getElementByObis, List.find?_flatMap_eq_none_iff]
  simp only [Bool.not_eq_true', decide_eq_false_iff_not, ne_eq]

theorem objName_of_getElementByObis (h : getElementByObis d code = some e) : e.objName = code.toList := by
  obtain ⟨_, _, _, _, _, -, -, hname, -⟩ := getElementByObis_eq_some_iff.1 h
  exact hname

end

/-- Settles O59: the two characterisations, and the length of the code, which the name answered has (corner case ii). -/
theorem queryFirstMatch : Obligations.QueryFirstMatch := by
  unfold Obligations.QueryFirstMatch
  intro d code
  refine ⟨fun e => getElementByObis_eq_some_iff, getElementByObis_eq_none_iff, fun e hfound => ?_⟩
  rw [objName_of_getElementByObis hfound, Vector.length_toList]

/-! The unit table (R202, R261). -/

theorem getUnitAsString_eq (u : BitVec 8) :
    getUnitAsString u = if u.toNat = 27 then "W" else if u.toNat = 30 then "Wh" else "" := by
  simp only [getUnitAsString, BitVec.toNat_eq, BitVec.reduceToNat]

section
variable {e : ListEntry}

theorem ListEntry.unitString_of_absent (hunit : e.unit = none) : e.unitString = "" := by
  simp only [ListEntry.unitString, hunit]

theorem ListEntry.unitString_of_present {u : BitVec 8} (hunit : e.unit = some u) : e.unitString = getUnitAsString u := by
  simp only [ListEntry.unitString, hunit]

/-! The number an entry holds, by the kind of its value (R262). -/

theorem ListEntry.number_of_int {v : BitVec 64} (hvalue : e.value = .int v) : e.number = some v.toInt := by
  simp only [ListEntry.number, hvalue]

theorem ListEntry.number_of_uint {v : BitVec 64} (hvalue : e.value = .uint v) : e.number = some (v.toNat : Int) := by
  simp only [ListEntry.number, hvalue, Int.ofNat_eq_natCast]

theorem ListEntry.number_of_str {bs : List Byte} (hvalue : e.value = .str bs) : e.number = none := by
  simp only [ListEntry.number, hvalue]

theorem ListEntry.number_of_unset (hvalue : e.value = .unset) : e.number = none := by
  simp only [ListEntry.number, hvalue]

/-! The effective value scales that number, and there is none without it. -/

theorem effective_of_number {n : Int} (hnumber : e.number = some n) :
    effective e = some ((n : Rat) * (10 : Rat) ^ e.scaler.toInt) := by
  rw [effective, hnumber]
  rfl

theorem effective_of_no_number (hnumber : e.number = none) : effective e = none := by
  rw [effective, hnumber]
  rfl

end

/-- Settles O60: the table by the code's number, the unit by its presence, and the effective value by the kind of the entry's value. -/
theorem unitsAndEffectiveValue : Obligations.UnitsAndEffectiveValue := by
  unfold Obligations.UnitsAndEffectiveValue
  refine ⟨getUnitAsString_eq, fun e => ⟨ListEntry.unitString_of_absent, fun u => ListEntry.unitString_of_present⟩,
    fun e v bs => ⟨fun hint => ?_, fun huint => ?_, fun hstr => ?_, fun hunset => ?_⟩⟩
  · exact effective_of_number (ListEntry.number_of_int hint)
  · rw [effective_of_number (ListEntry.number_of_uint huint), Int.cast_natCast]
  · exact effective_of_no_number (ListEntry.number_of_str hstr)
  · exact effective_of_no_number (ListEntry.number_of_unset hunset)

end Sys2Proof.Machine
end

/-! Errors and warnings (60_exceptions.md): taking either, the policies of the four governed checks, and the causes of a fatal error (R271),
place by place. -/

section
namespace Sys2Proof.Machine

open Sys2Proof

/-! Taking a fatal error and taking a warning (R284, R290, R292). -/

/-- Error is a resting place: the block stays there until a command comes (R290, R291). -/
theorem step_raiseFatal {s : State} (hcmd : s.cmd = none) (c : FatalCode) : step (s.raiseFatal c) = .next (s.raiseFatal c) :=
  step_of_waiting hcmd rfl

/-- Settles O19: the four codes are those of the model's table, and the writes are those of `State.raiseFatal_eq` and `State.warn_eq`. -/
theorem fatalAndWarningEntry : Obligations.FatalAndWarningEntry := by
  unfold Obligations.FatalAndWarningEntry
  have hcodes : ∀ x ∈ [(FatalCode.headerMismatch, ResultCode.headerMismatch, EventCode.fHeaderMismatch),
      (.syntaxError, .syntaxError, .fSyntaxError), (.sizeError, .sizeError, .fSizeError),
      (.unknownMessageType, .unknownMessageType, .fUnknownType)], x = (x.1, x.1.result, x.1.event) := by decide
  refine ⟨fun s c r e hmem => ⟨?_, fun hcmd => step_raiseFatal hcmd c⟩, State.warn_eq⟩
  obtain ⟨rfl, rfl⟩ : r = c.result ∧ e = c.event := by simpa using hcodes _ hmem
  exact s.raiseFatal_eq c

/-! Policies (R282). -/

/-- The row of a policy that is fatal at the values where `f` is. -/
def Policy.rowOf (f : Byte → Treatment) : BitVec 256 := BitVec.ofFnLE fun a => decide (f (BitVec.ofFin a) = .fatal)

theorem Policy.rowOf_bit (f : Byte → Treatment) (a : Byte) : (Policy.rowOf f).getLsbD a.toNat = decide (f a = .fatal) := by
  rw [Policy.rowOf, BitVec.getLsbD_ofFnLE, dif_pos a.isLt]
  rfl

/-- The policy that treats a failed check as `f` says. -/
def Policy.ofFunction (f : Check → Byte → Treatment) : Policy where
  bodyListArity := Policy.rowOf (f .bodyListArity)
  eom := Policy.rowOf (f .eom)
  endEscape := Policy.rowOf (f .endEscape)
  endByte := Policy.rowOf (f .endByte)

theorem Policy.ofFunction_treatment (f : Check → Byte → Treatment) (k : Check) (a : Byte) :
    (Policy.ofFunction f).treatment k a = f k a := by
  have hbit (t : Treatment) : (if decide (t = .fatal) then Treatment.fatal else .warn) = t := by cases t <;> rfl
  cases k <;> simp only [Policy.treatment, Policy.ofFunction, Policy.rowOf_bit, hbit]

/-- The first uniform alternative treats every check as the default table treats the end-of-message byte. -/
theorem uniform_treatment (k : Check) (a : Byte) : Policy.uniform.treatment k a = Policy.default.treatment .eom a := by
  cases k <;> rfl

theorem alwaysWarn_treatment (k : Check) (a : Byte) : Policy.alwaysWarn.treatment k a = .warn := by
  cases k <;> simp only [Policy.treatment, Policy.alwaysWarn, BitVec.ofNat_eq_ofNat, BitVec.getLsbD_zero, Bool.false_eq_true, if_false]

/-- Settles O20: the rows by their bits, and a function's policy by its table of bits (`Policy.ofFunction`). -/
theorem policyTable : Obligations.PolicyTable := by
  unfold Obligations.PolicyTable
  refine ⟨fun a => ⟨default_bodyListArity a, default_warn _ (by decide) a, default_warn _ (by decide) a, default_warn _ (by decide) a,
    fun k => ?_, fun k => alwaysWarn_treatment k a⟩, fun f => ⟨Policy.ofFunction f, Policy.ofFunction_treatment f⟩⟩
  rw [uniform_treatment]
  exact default_warn _ (by decide) a

/-! A field's step enters Error only where the buffer ends inside its primitive (R122, R180). -/

theorem State.nextField_ne_error (s : State) (f : Slot) : (s.nextField f).seq ≠ .error :=
  Position.ne_error_of_inMessage (s.nextField_inMessage f)

/-- A reader that did not run out of bytes leads to the next line of the field's rule. -/
theorem State.finish_ne_error {s : State} (f : Slot) (op : Op) (h : s.ret.status ≠ .short) : (s.finish f op).seq ≠ .error := by
  have hr : (if f.dispatches then dispatched op s.ret else s.ret).status ≠ .short := by
    split
    · rwa [dispatched_status]
    · exact h
  unfold State.finish
  generalize (if f.dispatches then dispatched op s.ret else s.ret) = r at hr
  dsimp only
  split
  · exact absurd ‹_› hr
  all_goals exact State.nextField_ne_error _ f

theorem State.settle_ne_error {s : State} (f : Slot) (op : Op) (h : s.ret.status ≠ .short) : (s.settle f op).seq ≠ .error := by
  unfold State.settle
  split
  · cases op with
    | ostrLen =>
      simp only [State.afterOstrLen]
      split
      · split
        · exact State.finish_ne_error _ _ nofun
        · nofun
      all_goals exact State.finish_ne_error _ _ h
    | listLen =>
      simp only [State.afterListLen]
      split
      · exact State.finish_ne_error _ _ nofun
      · nofun
    | peek =>
      simp only [State.afterPeek]
      split
      · exact State.nextField_ne_error _ f
      · nofun
    | isOstr =>
      simp only [State.afterIsOstr]
      split
      · exact State.nextField_ne_error _ f
      · nofun
    | opt | ostrAny | unsigned | integer | status | value =>
      simp only [State.follow]
      split
      · nofun
      all_goals exact State.nextField_ne_error _ f
    | ostr | xostr | u8 | u16 | u32 | u64 | i8 | i16 | i32 | i64 | list | time => exact State.finish_ne_error _ _ h
  · exact State.finish_ne_error _ _ h

/-- What decodes at the cursor stands inside the buffer. -/
theorem State.encode_inside {s : State} {c : Ctx} {i : Instr} (hin : s.pos < s.len) (hdec : decode c s.window = .ok i) :
    s.pos + (encode i).length ≤ s.len := by
  obtain ⟨-, hstands⟩ := decode_sound hdec
  have hlen := hstands.length_le
  rw [s.window_length] at hlen
  omega

theorem State.accept_not_short {s : State} {n : Nat} (h : s.pos + n ≤ s.len) (v w : Val) : (s.accept n v w).ret.status ≠ .short := by
  rw [State.accept_inside h]
  nofun

theorem State.skipAbsent_not_short {s : State} (h : s.pos + 1 ≤ s.len) : s.skipAbsent.ret.status ≠ .short := by
  rw [State.skipAbsent, if_pos h]
  nofun

/-- A row of the Primitive Lexer whose bytes are inside the buffer does not run out of them (R122, R145). -/
theorem exec_lex_not_short {s u : State} {op : Op} {i : Instr} (hctx : i.ctx = .lex op) (hin : s.pos + (encode i).length ≤ s.len)
    (hexec : exec i s = .next u) : u.ret.status ≠ .short := by
  cases i with
  | absent => cases hexec; exact State.skipAbsent_not_short hin
  | ostr l p => cases hexec; exact State.accept_not_short (by rwa [Nat.add_comm 1]) _ _
  | u8 | u16 | u32 | u64 | i8 | i16 | i32 | i64 | list | timeSec | timeTs | timeLocal =>
    cases hexec; exact State.accept_not_short hin _ _
  | xostr ns t p =>
    have hlen : (encode (.xostr ns t p)).length = chainLength ns + p.length := by
      simp only [encode, chainLength, List.length_append, List.length_map, List.length_cons]
      omega
    cases hexec
    split
    · nofun
    · exact State.accept_not_short (hlen ▸ hin) _ _
  | value b | rdOstrAny b => cases hexec; split_ifs <;> nofun
  | rdUnsigned w | rdStatus w | rdInteger w =>
    cases hexec
    unfold State.selectReader
    split <;> nofun
  | isOstr | ostrLen | listLen | peek => cases hexec; nofun
  | opt b =>
    simp only [exec, execOpt] at hexec
    split at hexec
    · cases hexec; exact State.skipAbsent_not_short hin
    · split at hexec <;> cases hexec <;> nofun
  | _ => cases hctx

/-- A step at a field that enters Error found the buffer at its end inside the primitive. -/
theorem step_field_error_cause {s t : State} {f : Slot} {op : Op} (hcmd : s.cmd = none) (hseq : s.seq = .field f op)
    (hstep : step s = .next t) (herr : t.seq = .error) : t.result = .sizeError ∧ decode (.lex op) s.window = .error .short := by
  cases hdec : decode (.lex op) s.window with
  | ok i =>
    have hin := State.inside_of_decode_lex hdec
    obtain ⟨u, hexec, -⟩ := exec_lex_ran hseq (decode_lex_ctx hdec) hin
    have hret := exec_lex_not_short (decode_lex_ctx hdec) (State.encode_inside hin hdec) hexec
    rw [step_field_ok hcmd hseq hdec hexec] at hstep
    cases hstep
    exact absurd herr (State.settle_ne_error f op hret)
  | error e =>
    rw [step_field_error hcmd hseq hdec] at hstep
    cases hstep
    cases e with
    | short =>
      obtain ⟨r, -, heq⟩ := State.finish_of_short (s := s.return .short (sentinelAt f op)) f op rfl
      exact ⟨congrArg State.result heq, rfl⟩
    | tagMismatch | badLength => exact absurd herr (State.finish_ne_error f op nofun)

/-! The CRC field (R233) and the dispatch by the message type (R232). -/

section
variable {s t : State} (hstep : step s = .next t) (herr : t.seq = .error) (hcmd : s.cmd = none)
include hstep herr hcmd

theorem step_crcField_error_cause (hseq : s.seq = .crcField) : t.result = .sizeError ∧ decode .crcField s.window = .error .short := by
  cases hdec : decode .crcField s.window with
  | ok i =>
    have hin : s.pos < s.len := by
      by_contra hout
      rw [decode_crcField_end (Nat.not_lt.1 hout)] at hdec
      cases hdec
    have hinside := State.encode_inside hin hdec
    obtain ⟨v, rfl⟩ := readInto_ok hdec
    rw [step_crcField_ok hcmd hseq hdec, exec_crc_inside _ hinside] at hstep
    cases hstep
    cases herr
  | error e =>
    rw [step_crcField_error hcmd hseq hdec] at hstep
    cases hstep
    cases e with
    | short => exact ⟨rfl, rfl⟩
    | tagMismatch | badLength => cases herr

theorem step_dispatch_error_cause (hseq : s.seq = .dispatch) :
    t.result = .unknownMessageType ∧ s.env.msgType ≠ 0x0101 ∧ s.env.msgType ≠ 0x0701 ∧ s.env.msgType ≠ 0x0201 := by
  rw [step_dispatch hcmd hseq, dispatchType] at hstep
  split_ifs at hstep with hopen hclose hlist <;> cases hstep
  · cases herr
  · cases herr
  · cases herr
  · exact ⟨rfl, hopen, hlist, hclose⟩

end

/-! The rows of the other places (R221 to R226, R200, R234, R235). -/

section
variable {s t : State} (herr : t.seq = .error)
include herr

theorem exec_start_error_cause (hexec : exec .start s = .next t) :
    t.result = .sizeError ∧ findPattern (seekPattern s.cfg.startMode) (s.bytesFrom 0) = none := by
  cases hfind : findPattern (seekPattern s.cfg.startMode) (s.bytesFrom 0) with
  | none =>
    simp only [exec, execStart, hfind] at hexec
    cases hexec
    exact ⟨rfl, rfl⟩
  | some k =>
    simp only [exec, execStart, hfind] at hexec
    cases hexec
    cases herr

theorem exec_ver_error_cause (hexec : exec .ver s = .next t) :
    (t.result = .sizeError ∧ s.len < s.pos + 8) ∨
    (t.result = .headerMismatch ∧ s.pos + 8 ≤ s.len ∧ ¬ (s.buf.bytes s.pos 4 = escBytes ∧ s.buf.bytes (s.pos + 4) 4 = verBytes)) := by
  obtain hcut | hin := Nat.lt_or_ge s.len (s.pos + 8)
  · rw [exec_ver_short hcut] at hexec
    cases hexec
    exact .inl ⟨rfl, hcut⟩
  · by_cases hbytes : s.buf.bytes s.pos 4 = escBytes ∧ s.buf.bytes (s.pos + 4) 4 = verBytes
    · rw [exec_ver_passed hin hbytes] at hexec
      cases hexec
      cases herr
    · rw [exec_ver_mismatch hin hbytes] at hexec
      cases hexec
      exact .inr ⟨rfl, hin, hbytes⟩

theorem exec_entry_error_cause (hexec : exec .entry s = .next t) : t.result = .sizeError ∧ s.len ≤ s.pos := by
  obtain hin | hend := Nat.lt_or_ge s.pos s.len
  · by_cases hnibble : (s.buf.byte s.pos).toNat / 16 = 7
    · rw [exec_entry_header hin hnibble] at hexec
      cases hexec
      split at herr <;> cases herr
    · rw [exec_entry_mismatch hin hnibble] at hexec
      cases hexec
      cases herr
  · rw [exec_entry_end hend] at hexec
    cases hexec
    exact ⟨rfl, hend⟩

/-- A governed check, by its three outcomes: cut short by the end of the buffer, passed, or failed and treated by POLICY (R282). Only the
first, and the last under a policy that makes it fatal, enter Error. -/
theorem governed_error_cause {o : Out} {u : State} {k : Check} {c : FatalCode} {w : EventCode} {next : State → State} {cut good : Prop}
    (hnext : ∀ v, (next v).seq ≠ .error) (hcut : cut → o = .next (s.raiseFatal .sizeError))
    (hgood : ¬ cut → good → ∃ v, o = .next v ∧ v.seq ≠ .error) (hbad : ¬ cut → ¬ good → o = .next (u.governed k c w next))
    (ho : o = .next t) :
    (t.result = .sizeError ∧ cut) ∨
    (t.result = c.result ∧ ¬ cut ∧ ¬ good ∧ u.cfg.policy.treatment k u.env.abortOnError = .fatal) := by
  by_cases hc : cut
  · cases (hcut hc).symm.trans ho
    exact .inl ⟨rfl, hc⟩
  · by_cases hg : good
    · obtain ⟨v, hv, hne⟩ := hgood hc hg
      cases hv.symm.trans ho
      exact absurd herr hne
    · cases (hbad hc hg).symm.trans ho
      obtain ⟨hfatal, heq⟩ | ⟨-, heq⟩ := u.governed_cases k c w next
      · exact .inr ⟨congrArg State.result heq, hc, hg, hfatal⟩
      · exact absurd (heq ▸ herr) (hnext _)

theorem exec_eom_error_cause (hexec : exec .eom s = .next t) :
    (t.result = .sizeError ∧ s.len ≤ s.pos) ∨
    (t.result = .syntaxError ∧ ¬ s.len ≤ s.pos ∧ ¬ s.buf.byte s.pos = eomMark ∧
      s.cfg.policy.treatment .eom s.env.abortOnError = .fatal) := by
  have hnext (v : State) : v.afterEom.seq ≠ .error := by
    rw [State.afterEom_eq]
    split <;> nofun
  exact governed_error_cause herr hnext exec_eom_short
    (fun hin hbyte => ⟨_, exec_eom_passed (Nat.not_le.1 hin) hbyte, hnext _⟩) (fun hin => exec_eom_mismatch (Nat.not_le.1 hin)) hexec

theorem exec_esc_error_cause (hexec : exec .esc s = .next t) :
    (t.result = .sizeError ∧ s.len < s.pos + 4) ∨
    (t.result = .headerMismatch ∧ ¬ s.len < s.pos + 4 ∧ ¬ s.buf.bytes s.pos 4 = escBytes ∧
      s.cfg.policy.treatment .endEscape s.env.abortOnError = .fatal) :=
  governed_error_cause herr (by rintro _ ⟨⟩) exec_esc_short
    (fun hin hbytes => ⟨_, exec_esc_passed (Nat.not_lt.1 hin) hbytes, nofun⟩) (fun hin => exec_esc_mismatch (Nat.not_lt.1 hin)) hexec

theorem exec_endByte_error_cause (hexec : exec .endByte s = .next t) :
    (t.result = .sizeError ∧ s.len ≤ s.pos) ∨
    (t.result = .headerMismatch ∧ ¬ s.len ≤ s.pos ∧ ¬ s.buf.byte s.pos = endMark ∧
      s.cfg.policy.treatment .endByte s.env.abortOnError = .fatal) :=
  governed_error_cause herr (by rintro _ ⟨⟩) exec_endByte_short
    (fun hin hbyte => ⟨_, exec_endByte_passed (Nat.not_le.1 hin) hbyte, nofun⟩) (fun hin => exec_endByte_mismatch (Nat.not_le.1 hin)) hexec

theorem exec_bodyList_error_cause (hexec : exec .bodyList s = .next t) :
    (t.result = .sizeError ∧ s.len ≤ s.pos) ∨
    (t.result = .syntaxError ∧ ¬ s.len ≤ s.pos ∧ ¬ s.buf.byte s.pos = bodyListMark ∧
      s.cfg.policy.treatment .bodyListArity s.env.abortOnError = .fatal) := by
  obtain ⟨hend, hpassed, -⟩ := bodyListCheck s
  have hcause := governed_error_cause herr (good := s.buf.byte s.pos = bodyListMark) (by rintro _ ⟨⟩) hend
    (fun hin hbyte => ⟨_, hpassed (Nat.not_le.1 hin) hbyte, nofun⟩) (fun hin => exec_bodyList_mismatch (Nat.not_le.1 hin)) hexec
  split at hcause <;> exact hcause

end

/-- The loop guard is no check: it leads on, into a message or to the end (R224). -/
theorem exec_msg_ne_error {s t : State} (hexec : exec .msg s = .next t) : t.seq ≠ .error := by
  cases hexec
  split_ifs <;> nofun

/-- Settles O54, place by place: at a field and at the CRC field the bytes are cut short, a row outside a field has its own checks, and
the loop guard, SeekEnd and a resting place lead to no error. -/
theorem fatalCauses : Obligations.FatalCauses := by
  unfold Obligations.FatalCauses
  intro s t hcmd hne hstep herr
  have hrow {i : Instr} (hi : s.seq.row = some i) : exec i s = .next t := (step_row hcmd hi).symm.trans hstep
  cases hseq : s.seq with
  | idle | done =>
    rw [step_of_waiting hcmd (by rw [State.resting, hseq]; rfl)] at hstep
    cases hstep
    exact absurd herr hne
  | error => exact absurd hseq hne
  | seekEnd =>
    rw [step_of_cmd_none hcmd, sequence_seekEnd hseq] at hstep
    cases hstep
    cases herr
  | messageLoop => exact absurd herr (exec_msg_ne_error (hrow (by rw [hseq]; rfl)))
  | field f op =>
    obtain ⟨hresult, hshort⟩ := step_field_error_cause hcmd hseq hstep herr
    exact .inl ⟨hresult, .inr (.inr (.inl ⟨f, op, rfl, hshort⟩))⟩
  | crcField =>
    obtain ⟨hresult, hshort⟩ := step_crcField_error_cause hstep herr hcmd hseq
    simp [hresult, hshort]
  | dispatch =>
    obtain ⟨hresult, htype⟩ := step_dispatch_error_cause hstep herr hcmd hseq
    exact .inr (.inr (.inr ⟨hresult, rfl, htype⟩))
  | seekStart =>
    obtain ⟨hresult, hfind⟩ := exec_start_error_cause herr (hrow (by rw [hseq]; rfl))
    exact .inl ⟨hresult, .inl ⟨rfl, hfind⟩⟩
  | entryHeader =>
    obtain ⟨hresult, hend⟩ := exec_entry_error_cause herr (hrow (by rw [hseq]; rfl))
    simp [hresult, hend]
  | verifyHeader =>
    obtain ⟨hresult, hcut⟩ | ⟨hresult, hin, hbytes⟩ := exec_ver_error_cause herr (hrow (by rw [hseq]; rfl))
    · exact .inl ⟨hresult, .inr (.inl ⟨rfl, hcut⟩)⟩
    · exact .inr (.inl ⟨hresult, .inl ⟨rfl, hin, not_and_or.1 hbytes⟩⟩)
  | bodyList =>
    obtain ⟨hresult, hend⟩ | ⟨hresult, hin, hbyte, hfatal⟩ := exec_bodyList_error_cause herr (hrow (by rw [hseq]; rfl))
    · simp [hresult, hend]
    · exact .inr (.inr (.inl ⟨hresult, .inl ⟨rfl, Nat.not_le.1 hin, hbyte, hfatal⟩⟩))
  | eom =>
    obtain ⟨hresult, hend⟩ | ⟨hresult, hin, hbyte, hfatal⟩ := exec_eom_error_cause herr (hrow (by rw [hseq]; rfl))
    · simp [hresult, hend]
    · exact .inr (.inr (.inl ⟨hresult, .inr ⟨rfl, Nat.not_le.1 hin, hbyte, hfatal⟩⟩))
  | endEscape =>
    obtain ⟨hresult, hcut⟩ | ⟨hresult, hin, hbytes, hfatal⟩ := exec_esc_error_cause herr (hrow (by rw [hseq]; rfl))
    · simp [hresult, hcut]
    · exact .inr (.inl ⟨hresult, .inr (.inl ⟨rfl, Nat.not_lt.1 hin, hbytes, hfatal⟩)⟩)
  | endByte =>
    obtain ⟨hresult, hend⟩ | ⟨hresult, hin, hbyte, hfatal⟩ := exec_endByte_error_cause herr (hrow (by rw [hseq]; rfl))
    · simp [hresult, hend]
    · exact .inr (.inl ⟨hresult, .inr (.inr ⟨rfl, Nat.not_le.1 hin, hbyte, hfatal⟩)⟩)

end Sys2Proof.Machine
end

/-! A pending CMD write (R22, R314): which values are refused, and what a refusal leaves. -/

section
namespace Sys2Proof.Machine

open Sys2Proof

theorem decodeCommand_reserved {b : Byte} (hdecode : b ≠ 0x01) (hcrc16 : b ≠ 0x02) :
    ∃ e, decode .command [b] = .error e := by
  cases hdec : decode .command [b] with
  | error e => exact ⟨e, rfl⟩
  | ok i =>
    obtain ⟨hb, -⟩ | ⟨hb, -⟩ := decodeCommand_cases hdec
    · exact absurd hb hdecode
    · exact absurd hb hcrc16

theorem acceptCmd_of_decode_error {s : State} {b : Byte} {e : ReadFail} (hrest : s.resting = true)
    (hdec : decode .command [b] = .error e) : s.acceptCmd b = .next s.clearCmd := by
  simp only [State.acceptCmd, hrest, if_true, hdec]

theorem acceptCmd_of_running {s : State} (b : Byte) (hrun : s.resting = false) : s.acceptCmd b = .next s.clearCmd := by
  simp only [State.acceptCmd, hrun, Bool.false_eq_true, if_false]

/-- Settles O44: 01 and 02 decode to their commands and run; the refused writes by what the byte decodes to and by STATE. -/
theorem commandAcceptance : Obligations.CommandAcceptance := by
  unfold Obligations.CommandAcceptance
  intro s b hcmd
  have hstep : step s = s.acceptCmd b := step_of_cmd_some hcmd
  refine ⟨fun hrest hb => ?_, fun hrest hb => ?_, fun hrest hdecode hcrc16 => ?_, fun hrun => ?_⟩
  · subst hb
    exact step_of_decode_pending hcmd hrest
  · subst hb
    exact hstep.trans (acceptCmd_of_decode_ok hrest rfl)
  · obtain ⟨e, hdec⟩ := decodeCommand_reserved hdecode hcrc16
    exact hstep.trans (acceptCmd_of_decode_error hrest hdec)
  · exact hstep.trans (acceptCmd_of_running b hrun)

end Sys2Proof.Machine
end
